-- ==== Sys2Proof/Word.lean ====
section
/-! DEFINITION. The word width `W` of 00_scope.md R8 and the words and bytes built from it. -/

namespace Sys2Proof

/-- The legal values of the parameter `W` (R8: "legal values 32 and 64"). -/
inductive Width where
  | w32
  | w64
deriving DecidableEq, Repr

/-- `W`, in bits. -/
abbrev Width.bits : Width → Nat
  | .w32 => 32
  | .w64 => 64

/-- `2^W`: how many words, and how many byte addresses, there are (R13, R70). -/
abbrev Width.size (w : Width) : Nat := 2 ^ w.bits

/-- A `W`-bit unsigned word: index, count, address, operand or result (R8, R13). -/
abbrev Word (w : Width) := BitVec w.bits

/-- One byte of system memory (R70). -/
abbrev Byte := BitVec 8

end Sys2Proof
end

