-- ==== Sys2Proof/Config.lean ====
section
/-! DEFINITION. What an implementation fixes, and the values the spec leaves free. -/

namespace Sys2Proof

/-- `REG_BYTE_ORDER` (00_scope.md R11), open: an argument of the raw layout's export. -/
inductive ByteOrder where
  | little
  | big
deriving DecidableEq, Repr

/-- The width `State.reset` takes for the open parameter `W` (R8). DESIGN CHOICE, log entry 1:
the examples of 95_test_vectors.md use 64. Unsafe for a claim about `State.reset` alone. -/
def Config.resetWidth : Width := .w64

/-- What a byte of memory that no entry lists reads as. DESIGN CHOICE, log entry 2 (R321 leaves the
initial memory to a model argument, `State.resetOf`). Unsafe for a claim about `State.reset` alone. -/
def Config.unlistedByte : Byte := 0

/-- The quotient of a division by an element size of 0, which the spec does not give (R13 uses `/`
with `b > 0` only). A free value, log entry 9. Safe: nothing constrains it. -/
opaque Config.divByZero (w : Width) (a : Word w) : Word w

/-- The remainder of a division by an element size of 0. A free value, log entry 9. Safe. -/
opaque Config.modByZero (w : Width) (a : Word w) : Word w

end Sys2Proof
end

