-- ==== Sys2Proof/Syntax.lean ====
section
/-! DEFINITION. The commands of the opcode map (30_encoding.md R103), the ports (R104) and the lines
of the assembler syntax (R109, R110). -/

namespace Sys2Proof

/-- The three command ports (R104). -/
inductive PortId where
  /-- port W, driven by the writer client -/
  | writer
  /-- port R, driven by the reader client -/
  | reader
  /-- port C, driven by the control client -/
  | control
deriving DecidableEq, Repr

/-- The sixteen commands of R103. A constructor holds no operand: the command word holds none, the
operands travel on the port lines (R101). -/
inductive Instr where
  | new
  | newWithStorage
  | destroy
  | flush
  | readReg
  | len
  | elementSize
  | writeAvailable
  | write
  | getWriteRegions
  | advanceWriteIndex
  | readAvailable
  | read
  | readInto
  | getReadRegions
  | advanceReadIndex
deriving DecidableEq, Repr

/-- A line `<port>.<MNEMONIC> <OPA>, <OPB>, <OPC>` of the assembler syntax (R109), operands as written. -/
structure Line where
  port : PortId
  instr : Instr
  operands : List Nat
deriving DecidableEq, Repr

/-- The pseudo-instructions of R110. -/
inductive Pseudo where
  /-- `W.COMMIT n` -/
  | commit (n : Nat)
  /-- `R.CONSUME n` -/
  | consume (n : Nat)
  /-- `R.DRAIN dst` -/
  | drain (dst : Nat)
  /-- `W.TRY_WRITE src, k, esz` -/
  | tryWrite (src k esz : Nat)
deriving DecidableEq, Repr

end Sys2Proof
end

