-- ==== Sys2Proof/Decode.lean ====
section
/-! DEFINITION. The opcode map of 30_encoding.md R103: decoding (R106, R107), encoding, and the
ports and operands each row names. -/

namespace Sys2Proof

/-- Why a word is `ILLEGAL` (R107). -/
inductive Reject where
  /-- a reserved bit of 31:8 is set -/
  | reservedBits
  /-- the opcode is none of R103's -/
  | unusedOpcode
deriving DecidableEq, Repr

/-- The opcode map, in the order of R103. -/
def opcodeMap : List (BitVec 8 × Instr) :=
  [(0x01, .new), (0x02, .newWithStorage), (0x03, .destroy), (0x04, .flush), (0x05, .readReg),
   (0x08, .len), (0x09, .elementSize),
   (0x10, .writeAvailable), (0x11, .write), (0x12, .getWriteRegions), (0x13, .advanceWriteIndex),
   (0x20, .readAvailable), (0x21, .read), (0x22, .readInto), (0x23, .getReadRegions),
   (0x24, .advanceReadIndex)]

/-- Field `RSV`, bits 31:8 (R100). -/
def reservedField (word : BitVec 32) : BitVec 24 := word.extractLsb' 8 24

/-- Field `OPC8`, bits 7:0 (R100). -/
def opcodeField (word : BitVec 32) : BitVec 8 := word.extractLsb' 0 8

/-- Decoding, a total function of the word (R106). -/
def decode (word : BitVec 32) : Except Reject Instr :=
  if reservedField word ≠ 0 then .error .reservedBits
  else match opcodeMap.find? (fun row => row.1 == opcodeField word) with
    | some row => .ok row.2
    | none => .error .unusedOpcode

/-- The opcode of each row of R103. -/
def opcode : Instr → BitVec 8
  | .new => 0x01
  | .newWithStorage => 0x02
  | .destroy => 0x03
  | .flush => 0x04
  | .readReg => 0x05
  | .len => 0x08
  | .elementSize => 0x09
  | .writeAvailable => 0x10
  | .write => 0x11
  | .getWriteRegions => 0x12
  | .advanceWriteIndex => 0x13
  | .readAvailable => 0x20
  | .read => 0x21
  | .readInto => 0x22
  | .getReadRegions => 0x23
  | .advanceReadIndex => 0x24

/-- The word of a command: `zext_32(OPC8)` (R103). -/
def encode (i : Instr) : BitVec 32 := (opcode i).setWidth 32

/-- The ports a row of R103 names (column Ports). -/
def Instr.ports : Instr → List PortId
  | .new | .newWithStorage | .destroy | .flush | .readReg => [.control]
  | .len | .elementSize | .writeAvailable | .readAvailable => [.writer, .reader, .control]
  | .write | .getWriteRegions | .advanceWriteIndex => [.writer]
  | .read | .readInto | .getReadRegions | .advanceReadIndex => [.reader]

/-- How many of OPA, OPB, OPC a row of R103 uses, in that order. -/
def Instr.operandCount : Instr → Nat
  | .newWithStorage | .write => 3
  | .new | .read | .readInto => 2
  | .readReg | .getWriteRegions | .advanceWriteIndex | .getReadRegions | .advanceReadIndex => 1
  | .destroy | .flush | .len | .elementSize | .writeAvailable | .readAvailable => 0

/-- The command the decoder reads from the table's word number `w` of `nbits` bits (bits above
`nbits` are 0); a number that needs more than the one 32-bit word is no command (R100). -/
def decodeTableWord (nbits w : Nat) : Option Instr :=
  let v := w % 2 ^ nbits
  if v < 2 ^ 32 then
    match decode (BitVec.ofNat 32 v) with
    | .ok i => some i
    | .error _ => none
  else none

end Sys2Proof
end

