-- ==== Sys2Proof/WellFormed.lean ====
section
/-! DEFINITION. Well-formedness. An `Instr` has no field, so every one is well formed; what can be
ill formed is an assembler line (30_encoding.md R109): a port the row does not name (R104), a number
of operands that is not the row's (R103), an operand that is no `W`-bit value (R101). -/

namespace Sys2Proof

/-- The line's port is one its row names (R104). -/
def Line.portOk (l : Line) : Bool := decide (l.port ∈ l.instr.ports)

/-- The line writes exactly the operands its row uses (R109: unused trailing operands are omitted). -/
def Line.operandCountOk (l : Line) : Bool := decide (l.operands.length = l.instr.operandCount)

/-- Every operand is a `W`-bit value (R109). -/
def Line.operandsFit (w : Width) (l : Line) : Bool := l.operands.all (fun v => decide (v < w.size))

/-- The line has an encoding: its operands are the row's and fit. A line on a port the row does not
name is still encoded; the block answers it with `WrongPort` (R104). -/
def Line.encodable (w : Width) (l : Line) : Bool := l.operandCountOk && l.operandsFit w

/-- The line is a command its port may issue. -/
def Line.wellFormed (w : Width) (l : Line) : Bool := l.portOk && l.encodable w

end Sys2Proof
end

