-- ==== Sys2Proof/Machine/State.lean ====
section
/-! DEFINITION. The state of the block, its ports, the system memory, the ghost state, the allocator
oracle and the schedule, as plain data; and the state after reset. -/

namespace Sys2Proof.Machine

/-- The status codes of 60_exceptions.md R280, by name. -/
inductive Status where
  | ok
  | invalidCapacity
  | sizeMismatch
  | dataSizeMismatch
  | invalidElementSize
  | allocFailed
  | notConstructed
  | alreadyConstructed
  | illegalCommand
  | wrongPort
  | invalidRegister
deriving DecidableEq, Repr

/-- The states of a port machine (10_state.md R40, R41). -/
inductive Phase where
  | idle
  | copy
  | publish
deriving DecidableEq, Repr

/-- A port machine: `wst`, `wn`, `wk`, `wbuf` of R40, or `rst`, `rn`, `rk`, `rbuf` of R41. -/
structure PortMachine (w : Width) where
  /-- `wst` / `rst` -/
  st : Phase
  /-- `wn` / `rn`: elements to move -/
  n : Word w
  /-- `wk` / `rk`: bytes moved so far -/
  k : Word w
  /-- `wbuf` / `rbuf`: client buffer address -/
  buf : Word w
deriving DecidableEq, Repr

/-- The input lines of a port (R43): the command word and its three operands (R100, R101). -/
structure Command (w : Width) where
  word : BitVec 32
  opa : Word w
  opb : Word w
  opc : Word w
deriving DecidableEq, Repr

/-- One command port (R43, R105) and the last byte its client loaded (R291). -/
structure Port (w : Width) where
  /-- a command is on the lines and not yet accepted (R105) -/
  presented : Bool
  lines : Command w
  /-- `p.STATUS` -/
  status : BitVec 8
  /-- `p.RES0` .. `p.RES4` -/
  res0 : Word w
  res1 : Word w
  res2 : Word w
  res3 : Word w
  res4 : Word w
  /-- the byte the port's client last loaded (R291); log entry 8 -/
  loaded : Byte
deriving DecidableEq, Repr

/-- The model faults of R287. -/
inductive MFault where
  | overcommitWrite
  | overcommitRead
  | flushInFlight
  | destroyInFlight
  | storageAccess
  | bufferOverlap
  | regionWrap
deriving DecidableEq, Repr

/-- `ghost.faults` (R49): a set over the seven names, one membership bit each. -/
structure FaultSet where
  overcommitWrite : Bool
  overcommitRead : Bool
  flushInFlight : Bool
  destroyInFlight : Bool
  storageAccess : Bool
  bufferOverlap : Bool
  regionWrap : Bool
deriving DecidableEq, Repr

/-- The ghost state (R45, R46, R49). -/
structure Ghost where
  /-- `ghost.WLOG`, `ghost.RLOG` (R46) -/
  wlog : Nat
  rlog : Nat
  /-- `ghost.wgrant`, `ghost.rgrant` (R45) -/
  wgrant : Nat
  rgrant : Nat
  /-- `ghost.wzc`, `ghost.rzc` (R45) -/
  wzc : Bool
  rzc : Bool
  faults : FaultSet
deriving DecidableEq, Repr

/-- An answer of the allocator oracle to one request (00_scope.md R10): `refuse`, or `grant(base)`
with the unspecified bytes of the granted region (first byte at `base`; a byte the list does not
reach keeps the value it had). Log entries 3, 4. -/
inductive AllocAnswer (w : Width) where
  | refuse
  | grant (base : Word w) (bytes : List Byte)
deriving DecidableEq, Repr

/-- The allocator oracle (R10): its coming answers, oldest first, and the regions `(base, nbytes)`
granted and not yet released. -/
structure Oracle (w : Width) where
  answers : List (AllocAnswer w)
  live : List (Nat × Nat)
deriving DecidableEq, Repr

/-- The two port machines (R40, R41). -/
inductive Side where
  | writer
  | reader
deriving DecidableEq, Repr

/-- One atomic step of one agent (60_exceptions.md R300, R302): what comes next in the total order of
20_memory.md R83. Log entry 5. -/
inductive Move (w : Width) where
  /-- the client of `p` presents a command on its lines (R105) -/
  | present (p : PortId) (c : Command w)
  /-- port `p` accepts the command presented on it (R105) -/
  | accept (p : PortId)
  /-- a port machine takes its copy or publish step (R191) -/
  | machine (d : Side)
  /-- `LD.B a` by the client of `p` (R111) -/
  | load (p : PortId) (a : Word w)
  /-- `ST.B a, v` by the client of `p` (R111) -/
  | store (p : PortId) (a : Word w) (v : Byte)
deriving DecidableEq, Repr

/-- Everything the machine holds at word width `w`. -/
structure Body (w : Width) where
  /-- `CAP`, R33 -/
  cap : Word w
  /-- `WIDX`, R31 -/
  widx : Word w
  /-- `RIDX`, R32 -/
  ridx : Word w
  /-- `BMASK`, R34 -/
  bmask : Word w
  /-- `SMASK`, R35 -/
  smask : Word w
  /-- `ESZ`, R36 -/
  esz : Word w
  /-- `BASE`, R37 -/
  base : Word w
  /-- `OWNED`, R38 -/
  owned : Bool
  /-- `CONSTRUCTED`, R39 -/
  constructed : Bool
  /-- the writer port machine, R40 -/
  writer : PortMachine w
  /-- the reader port machine, R41 -/
  reader : PortMachine w
  /-- ports W, R and C, R43 -/
  portW : Port w
  portR : Port w
  portC : Port w
  /-- the system memory, R70: strictly rising addresses, no entry that equals the unlisted byte -/
  mem : List Host.Cell
  /-- ghost state, R45, R46, R49 -/
  ghost : Ghost
  /-- the allocator oracle, R10 -/
  oracle : Oracle w
  /-- the port whose command `exec` runs (the model's own field, log entry 6) -/
  active : PortId
  /-- the agents' next steps, oldest first (the model's own field, log entry 5) -/
  sched : List (Move w)
deriving DecidableEq, Repr

/-- The machine: the parameter `W` (R8) and everything it holds at that width. -/
structure State where
  width : Width
  body : Body width
deriving DecidableEq, Repr

/-- No step of this model ends in a fault, so there is no fault name: the block has no trap
(R292, R293), every byte is addressable (R70), and a model fault of R287 is recorded in
`Ghost.faults` and does not stop the run (R288). Log entry 12. -/
inductive Fault where
deriving DecidableEq, Repr

/-- The refusals. -/
inductive Refusal where
  /-- Raised by an arm of `exec` for a command whose meaning is not written yet. Safe: the run stops.
  No arm raises it in this model. -/
  | notModelled (mnemonic : String)
deriving DecidableEq, Repr

/-- What the schedule gives `step` to do. -/
inductive Scheduled where
  /-- the step is taken, no command is accepted in it -/
  | took (s : State)
  /-- a port accepts the command word `word`, whose effect on `s` is to be run -/
  | run (word : BitVec 32) (s : State)
deriving DecidableEq, Repr

/-- Apply an operation at the machine's own width. -/
def State.update (s : State) (f : Body s.width → Body s.width) : State := ⟨s.width, f s.body⟩

/-- The empty fault set (R49, R320). -/
def FaultSet.empty : FaultSet := ⟨false, false, false, false, false, false, false⟩

/-- The ghost state after reset (R320). -/
def Ghost.reset : Ghost := ⟨0, 0, 0, 0, false, false, .empty⟩

/-- A port machine after reset (R320): `IDLE`, every latch 0. -/
def PortMachine.reset (w : Width) : PortMachine w := ⟨.idle, 0, 0, 0⟩

/-- A port after reset (R320): STATUS and results 0, nothing presented. The lines (log entry 7) and
the client's byte (log entry 8) are DESIGN CHOICES: the spec gives them no reset value. -/
def Port.reset (w : Width) : Port w := ⟨false, ⟨0, 0, 0, 0⟩, 0, 0, 0, 0, 0, 0, 0⟩

/-- Everything at its reset value (R320), with initial memory `mem` (R321: a model argument), the
oracle's coming answers and the agents' coming steps. -/
def Body.resetOf (w : Width) (mem : List Host.Cell) (answers : List (AllocAnswer w))
    (sched : List (Move w)) : Body w where
  cap := 0
  widx := 0
  ridx := 0
  bmask := 0
  smask := 0
  esz := 0
  base := 0
  owned := false
  constructed := false
  writer := .reset w
  reader := .reset w
  portW := .reset w
  portR := .reset w
  portC := .reset w
  mem := mem
  ghost := .reset
  oracle := ⟨answers, []⟩
  active := .control
  sched := sched

/-- Hardware reset (R320, R321) at width `w`. -/
def State.resetOf (w : Width) (mem : List Host.Cell) (answers : List (AllocAnswer w))
    (sched : List (Move w)) : State := ⟨w, .resetOf w mem answers sched⟩

/-- The machine right after reset (R320, R321). Where the spec leaves a value open the choice is the
model's, DESIGN CHOICE: `W` is 64 (R8, log entry 1); no byte of memory is listed (R321, log entry 2);
the oracle has no answer to come (R10 leaves `ALLOC` open), so that every NEW that gets as far as its
request in a run from this state reports `AllocFailed` (log entry 4); no step is coming (log entry 5).
`State.resetOf` takes each of the four as an argument. Unsafe for a claim about this state alone. -/
def State.reset : State := .resetOf Config.resetWidth [] [] []

end Sys2Proof.Machine
end

