-- ==== Sys2Proof/Machine/Ops.lean ====
section
/-! DEFINITION. The named operations over memory, ports, ghost state and the allocator oracle, and
the response with which every command ends. Reporting an error is `Body.raise` (R283, R284): the
block has no other exceptional event, and nothing to return from (R293, R294). -/

namespace Sys2Proof.Machine

variable {w : Width}

/-! ### System memory -/

/-- `MemRead(a, 1)` (00_scope.md R15). -/
def memRead : List Host.Cell → Nat → Byte
  | [], _ => Config.unlistedByte
  | (k, v) :: rest, a => if k = a then v else memRead rest a

/-- The cells of one written byte: none where the byte is what an unlisted address reads as. -/
def memCell (a : Nat) (v : Byte) : List Host.Cell :=
  if v = Config.unlistedByte then [] else [(a, v)]

/-- `MemWrite(a, 1, v)` (R15), keeping the canonical form. -/
def memWrite : List Host.Cell → Nat → Byte → List Host.Cell
  | [], a, v => memCell a v
  | (k, x) :: rest, a, v =>
    if a < k then memCell a v ++ (k, x) :: rest
    else if a = k then memCell a v ++ rest
    else (k, x) :: memWrite rest a v

/-- Bytes stored one after another from address `a` on, addresses modulo `2^W` (R71). -/
def memOverlay (m : List Host.Cell) (a : Word w) : List Byte → List Host.Cell
  | [] => m
  | v :: rest => memOverlay (memWrite m a.toNat v) (a + 1) rest

/-- The canonical form of a memory of `2^W` bytes: addresses strictly rising and below `2^W`, no
entry equal to what an unlisted address reads as. -/
def memWf (w : Width) (m : List Host.Cell) : Bool :=
  decide (m.Pairwise fun x y => x.1 < y.1) &&
    m.all fun c => decide (c.1 < w.size) && decide (c.2 ≠ Config.unlistedByte)

/-- The byte at a word address. -/
def Body.byteAt (b : Body w) (a : Word w) : Byte := memRead b.mem a.toNat

/-- Store one byte at a word address. -/
def Body.putByte (b : Body w) (a : Word w) (v : Byte) : Body w :=
  { b with mem := memWrite b.mem a.toNat v }

/-! ### Ports and responses -/

/-- Port `p`. -/
def Body.port (b : Body w) : PortId → Port w
  | .writer => b.portW
  | .reader => b.portR
  | .control => b.portC

/-- Replace port `p`. -/
def Body.setPort (b : Body w) (p : PortId) (q : Port w) : Body w :=
  match p with
  | .writer => { b with portW := q }
  | .reader => { b with portR := q }
  | .control => { b with portC := q }

/-- The status codes (R280). -/
def Status.code : Status → BitVec 8
  | .ok => 0x00
  | .invalidCapacity => 0x01
  | .sizeMismatch => 0x02
  | .dataSizeMismatch => 0x03
  | .invalidElementSize => 0x10
  | .allocFailed => 0x11
  | .notConstructed => 0x12
  | .alreadyConstructed => 0x13
  | .illegalCommand => 0x14
  | .wrongPort => 0x15
  | .invalidRegister => 0x16

/-- A port after a response (R16, R43): STATUS and every result replaced, nothing else. -/
def Port.answer (q : Port w) (st : Status) (r0 r1 r2 r3 r4 : Word w) : Port w :=
  { q with status := st.code, res0 := r0, res1 := r1, res2 := r2, res3 := r3, res4 := r4 }

/-- `respond(st, r0, r1, r2, r3, r4)` on port `p` (R16). -/
def Body.respondOn (b : Body w) (p : PortId) (st : Status) (r0 r1 r2 r3 r4 : Word w) : Body w :=
  b.setPort p ((b.port p).answer st r0 r1 r2 r3 r4)

/-- `respond(OK, r0)` on the port whose command runs. -/
def Body.ok (b : Body w) (r0 : Word w) : Body w := b.respondOn b.active .ok r0 0 0 0 0

/-- `raise Status(st)` (R16, R284): the code on the issuing port, every result 0, nothing else. -/
def Body.raise (b : Body w) (st : Status) : Body w := b.respondOn b.active st 0 0 0 0 0

/-- The check of R104 before a command's rule, which is check 2 of R286. -/
def Body.command (b : Body w) (i : Instr) (rule : Body w) : Body w :=
  if b.active ∈ i.ports then rule else b.raise .wrongPort

/-- R104 and then the `NotConstructed` check of R285 before a command's rule. -/
def Body.constructedCommand (b : Body w) (i : Instr) (rule : Body w) : Body w :=
  b.command i (if b.constructed then rule else b.raise .notConstructed)

/-- An `ILLEGAL` word completes with `IllegalCommand` and has no other effect (R107). -/
def State.illegalCommand (s : State) : State := s.update fun b => b.raise .illegalCommand

/-! ### Ghost state -/

/-- Membership in the fault set. -/
def FaultSet.has (f : FaultSet) : MFault → Bool
  | .overcommitWrite => f.overcommitWrite
  | .overcommitRead => f.overcommitRead
  | .flushInFlight => f.flushInFlight
  | .destroyInFlight => f.destroyInFlight
  | .storageAccess => f.storageAccess
  | .bufferOverlap => f.bufferOverlap
  | .regionWrap => f.regionWrap

/-- Adding one name (R49). -/
def FaultSet.add (f : FaultSet) : MFault → FaultSet
  | .overcommitWrite => { f with overcommitWrite := true }
  | .overcommitRead => { f with overcommitRead := true }
  | .flushInFlight => { f with flushInFlight := true }
  | .destroyInFlight => { f with destroyInFlight := true }
  | .storageAccess => { f with storageAccess := true }
  | .bufferOverlap => { f with bufferOverlap := true }
  | .regionWrap => { f with regionWrap := true }

/-- `if c: fault MF_x` (R16, R288): the name is recorded, the rule goes on. -/
def Body.recordIf (b : Body w) (c : Bool) (x : MFault) : Body w :=
  { b with ghost := { b.ghost with faults := if c then b.ghost.faults.add x else b.ghost.faults } }

/-- Set the writer's pair of ghost grants (R45). -/
def Body.setWriteGrant (b : Body w) (grant : Nat) (zc : Bool) : Body w :=
  { b with ghost := { b.ghost with wgrant := grant, wzc := zc } }

/-- Set the reader's pair of ghost grants (R45). -/
def Body.setReadGrant (b : Body w) (grant : Nat) (zc : Bool) : Body w :=
  { b with ghost := { b.ghost with rgrant := grant, rzc := zc } }

/-- NEW, NEW_WITH_STORAGE, FLUSH and DESTROY: both logical indices and all four grant items cleared
(R45, R46); the fault set stays (R49). -/
def Body.clearGhost (b : Body w) : Body w :=
  { b with ghost := ⟨0, 0, 0, 0, false, false, b.ghost.faults⟩ }

/-! ### The allocator oracle (00_scope.md R10) -/

/-- Two byte ranges `(base, nbytes)` have no byte in common. -/
def rangesApart (x y : Nat × Nat) : Bool := decide (x.1 + x.2 ≤ y.1) || decide (y.1 + y.2 ≤ x.1)

/-- A region the oracle may grant: it does not wrap the address space and does not overlap any
region granted before and not yet released (R10). -/
def Oracle.mayGrant (o : Oracle w) (base n : Nat) : Bool :=
  decide (base + n ≤ w.size) && o.live.all (rangesApart (base, n))

/-- `ALLOC.request(n)`: the oracle's answer, and the machine after it. A granted region holds the
bytes the answer brings (R10: unspecified). An offer that R10 rules out is a refusal, and so is the
want of an answer (log entry 4). -/
def Body.allocRequest (b : Body w) (n : Nat) : Body w × Option (Word w) :=
  match b.oracle.answers with
  | [] => (b, none)
  | .refuse :: rest => ({ b with oracle := { b.oracle with answers := rest } }, none)
  | .grant base bytes :: rest =>
    if b.oracle.mayGrant base.toNat n then
      ({ b with oracle := ⟨rest, (base.toNat, n) :: b.oracle.live⟩,
                mem := memOverlay b.mem base (bytes.take n) }, some base)
    else ({ b with oracle := { b.oracle with answers := rest } }, none)

/-- `ALLOC.release(base, n)`. -/
def Body.allocRelease (b : Body w) (base n : Nat) : Body w :=
  { b with oracle := { b.oracle with live := b.oracle.live.erase (base, n) } }

/-! ### The raw layout (44_control.md R258) -/

/-- Word `k` of the raw layout; there are seven. -/
def Body.layoutWord (b : Body w) : Nat → Option (Word w)
  | 0 => some b.cap
  | 1 => some b.widx
  | 2 => some b.ridx
  | 3 => some b.bmask
  | 4 => some b.smask
  | 5 => some b.esz
  | 6 => some b.base
  | _ => none

/-- The `W/8` bytes of a word, lowest address first. -/
def wordBytes (o : ByteOrder) (v : Word w) : List Byte :=
  let little := (List.range (w.bits / 8)).map fun i => v.extractLsb' (8 * i) 8
  match o with
  | .little => little
  | .big => little.reverse

/-- The layout exported as bytes, `7*W/8` of them, in byte order `o` (R11, R258). -/
def Body.rawLayout (b : Body w) (o : ByteOrder) : List Byte :=
  [b.cap, b.widx, b.ridx, b.bmask, b.smask, b.esz, b.base].flatMap (wordBytes o)

end Sys2Proof.Machine
end

