-- ==== Sys2Proof/Machine/Flags.lean ====
section
/-! DEFINITION. The query unit (41_pointer_logic_and_queries.md R167, R171). The block has no flag
register; these five combinational outputs are its only flag-like signals. -/

namespace Sys2Proof.Machine

variable {w : Width}

/-- `Q_RA`, read available. -/
def Body.qRA (b : Body w) : Word w := if b.constructed then (b.widx - b.ridx) &&& b.bmask else 0

/-- `Q_WA`, write available. -/
def Body.qWA (b : Body w) : Word w := if b.constructed then b.cap - b.qRA else 0

/-- `Q_EMPTY`. -/
def Body.qEmpty (b : Body w) : Bool := b.constructed && decide (b.qRA = 0)

/-- `Q_FULL`. -/
def Body.qFull (b : Body w) : Bool := b.constructed && decide (b.qRA = b.cap)

/-- `Q_CONSTRUCTED`. -/
def Body.qConstructed (b : Body w) : Bool := b.constructed

end Sys2Proof.Machine
end

