-- ==== Sys2Proof/Machine/Operands.lean ====
section
/-! DEFINITION. The operand lines, and the combinational functions the commands' rules use: the
power-of-two test (R130), the slot mask and its address (R161, R162), index advance (R163), region
splitting (R164, R165), the clamp (R178), the client-buffer check (R192) and the storage rights (R48). -/

namespace Sys2Proof.Machine

variable {w : Width}

/-! ### Operand lines (30_encoding.md R101) -/

/-- `OPA` of the port whose command runs. -/
def Body.opa (b : Body w) : Word w := (b.port b.active).lines.opa

/-- `OPB` of the port whose command runs. -/
def Body.opb (b : Body w) : Word w := (b.port b.active).lines.opb

/-- `OPC` of the port whose command runs. -/
def Body.opc (b : Body w) : Word w := (b.port b.active).lines.opc

/-! ### Arithmetic -/

/-- `a / b` (R13: `b > 0` wherever used; by 0 a free value, log entry 9). -/
def quotient (a b : Word w) : Word w := if b = 0 then Config.divByZero w a else a / b

/-- `a mod b` (R13; by 0 a free value, log entry 9). -/
def remainder (a b : Word w) : Word w := if b = 0 then Config.modByZero w a else a % b

/-- `IsPow2(c)` (R130). -/
def isPow2 (c : Word w) : Bool := decide (c ≠ 0) && decide (c &&& (c - 1) = 0)

/-- `2*c - 1`, exact for `1 <= c <= 2^(W-1)` (R34, R160). -/
def bigMask (c : Word w) : Word w := BitVec.ofNat _ (2 * c.toNat - 1)

/-- `c - 1` (R35, R160). -/
def smallMask (c : Word w) : Word w := c - 1

/-- The storage length `CAP * ESZ`, exact (R73). -/
def Body.storageBytes (b : Body w) : Nat := b.cap.toNat * b.esz.toNat

/-! ### Mask and modulo logic -/

/-- `Slot(i)` (R161). -/
def Body.slot (b : Body w) (i : Word w) : Word w := i &&& b.smask

/-- `SlotAddr(i)` (R162). -/
def Body.slotAddr (b : Body w) (i : Word w) : Word w := b.base + b.slot i * b.esz

/-- `IdxAdd(i, n)` (R163). -/
def Body.idxAdd (b : Body w) (i n : Word w) : Word w := (i + n) &&& b.bmask

/-- The address of byte `j` of a transfer that starts at index `i` (R190, R195). -/
def Body.transferAddr (b : Body w) (i j : Word w) : Word w :=
  b.slotAddr (i + quotient j b.esz) + remainder j b.esz

/-- `Split(s, n)`: the two spans `(start slot, length)` (R164). -/
def Body.split (b : Body w) (s n : Word w) : (Word w × Word w) × (Word w × Word w) :=
  let off := b.slot s
  if off.toNat + n.toNat ≤ b.cap.toNat then ((off, n), (0, 0))
  else ((off, b.cap - off), (0, n - (b.cap - off)))

/-- A span as the region a port reports (R165). -/
def Body.region (b : Body w) (span : Word w × Word w) : Word w × Word w :=
  (b.base + span.1 * b.esz, span.2)

/-- The second span as a region: `(0, 0)` where it does not exist (R165). -/
def Body.secondRegion (b : Body w) (span : Word w × Word w) : Word w × Word w :=
  if span.2 = 0 then (0, 0) else b.region span

/-- `min(a, b)` (R13). -/
def wordMin (a b : Word w) : Word w := if a ≤ b then a else b

/-- `Clamp(count, avail)` (R178). -/
def Body.clamp (b : Body w) (count avail : Word w) : Word w :=
  wordMin (wordMin count avail) b.cap

/-! ### Byte ranges -/

/-- `[a, a + m)` and `[c, c + n)`, taken modulo `2^W` (R71), have a byte in common. DEDUCED for
ranges that wrap, log entry 11. -/
def rangesMeet (a : Word w) (m : Nat) (c : Word w) (n : Nat) : Bool :=
  decide (0 < m) && decide (0 < n) && (decide ((a - c).toNat < n) || decide ((c - a).toNat < m))

/-- `[a, a + n)` wraps the address space (R71). -/
def rangeWraps (a : Word w) (n : Nat) : Bool := decide (0 < n) && decide (w.size < a.toNat + n)

/-- `Bad(buf, len)` (R192). -/
def Body.badBuffer (b : Body w) (buf : Word w) (len : Nat) : Bool :=
  decide (0 < len) && (rangeWraps buf len || rangesMeet buf len b.base b.storageBytes)

/-! ### Storage access rights (10_state.md R48) -/

/-- Byte `a` lies in the storage of a constructed block (R72). -/
def Body.inStorage (b : Body w) (a : Word w) : Bool :=
  b.constructed && decide ((a - b.base).toNat < b.storageBytes)

/-- The slot of a storage byte: `(a - BASE) / ESZ`. -/
def Body.slotOfByte (b : Body w) (a : Word w) : Nat := (a - b.base).toNat / b.esz.toNat

/-- `slot` is the slot of one of the logical elements `start .. start + count - 1`, where element `i`
stands in slot `i mod cap` (R48): the distance from `start` to the first element in that slot is
below `count`. -/
def slotGranted (cap start count slot : Nat) : Bool :=
  decide ((slot + (cap - start % cap)) % cap < count)

/-- Whether the client of `p` may load (`store = false`) or store (`store = true`) at `a` (R48). -/
def Body.mayAccess (b : Body w) (p : PortId) (store : Bool) (a : Word w) : Bool :=
  !b.inStorage a ||
    match p with
    | .writer => slotGranted b.cap.toNat b.ghost.wlog b.ghost.wgrant (b.slotOfByte a)
    | .reader => !store && slotGranted b.cap.toNat b.ghost.rlog b.ghost.rgrant (b.slotOfByte a)
    | .control => false

end Sys2Proof.Machine
end

