-- ==== Sys2Proof/Machine/Transfer.lean ====
section
/-! DEFINITION. The linear transfers WRITE, READ and READ_INTO (42_linear_transfer.md): the accept
step each command runs, and the copy and publish steps of the two port machines. -/

namespace Sys2Proof.Machine

variable {w : Width}

/-! ### Accept steps -/

/-- A machine loaded for `n` elements of `esz` bytes at client address `buf`, nothing moved yet. -/
def PortMachine.start (n buf : Word w) (esz : Word w) : PortMachine w :=
  ⟨if 0 < n.toNat * esz.toNat then .copy else .publish, n, 0, buf⟩

/-- The accept step's common part on the writer's side, from the clamp on (R190). -/
def Body.startWrite (b : Body w) (n src : Word w) : Body w :=
  { ((b.setWriteGrant 0 false).recordIf (b.badBuffer src (n.toNat * b.esz.toNat)) .bufferOverlap) with
    writer := .start n src b.esz }

/-- The accept step's common part on the reader's side, from the clamp on (R195). -/
def Body.startRead (b : Body w) (n dst : Word w) : Body w :=
  { ((b.setReadGrant 0 false).recordIf (b.badBuffer dst (n.toNat * b.esz.toNat)) .bufferOverlap) with
    reader := .start n dst b.esz }

/-- WRITE's accept step (R190, R193) with `OPA = src`, `OPB = nbytes`, `OPC = count`. -/
def Body.acceptWrite (b : Body w) (src nbytes count : Word w) : Body w :=
  if remainder nbytes b.esz ≠ 0 then b.raise .dataSizeMismatch
  else if quotient nbytes b.esz < count then b.raise .dataSizeMismatch
  else b.startWrite (b.clamp count b.qWA) src

/-- READ's accept step (R195) with `OPA = dst`, `OPB = count`. -/
def Body.acceptRead (b : Body w) (dst count : Word w) : Body w :=
  b.startRead (b.clamp count b.qRA) dst

/-- READ_INTO's accept step (R198, R199) with `OPA = dst`, `OPB = nbytes`. -/
def Body.acceptReadInto (b : Body w) (dst nbytes : Word w) : Body w :=
  if remainder nbytes b.esz ≠ 0 then b.raise .dataSizeMismatch
  else b.acceptRead dst (quotient nbytes b.esz)

/-! ### Copy and publish steps -/

/-- A machine after it moved one byte (R191). The products are exact (R13); log entry 10. -/
def PortMachine.moved (m : PortMachine w) (esz : Word w) : PortMachine w :=
  { m with
    k := m.k + 1
    st := if (m.k + 1).toNat = m.n.toNat * esz.toNat then .publish else .copy }

/-- The writer machine's copy step (R190, R191): one byte from the client's buffer to the storage. -/
def Body.copyWrite (b : Body w) : Body w :=
  { b.putByte (b.transferAddr b.widx b.writer.k) (b.byteAt (b.writer.buf + b.writer.k)) with
    writer := b.writer.moved b.esz }

/-- The reader machine's copy step (R195, R191): one byte from the storage to the client's buffer. -/
def Body.copyRead (b : Body w) : Body w :=
  { b.putByte (b.reader.buf + b.reader.k) (b.byteAt (b.transferAddr b.ridx b.reader.k)) with
    reader := b.reader.moved b.esz }

/-- The writer machine's publish step (R190, R85), with its response on port W. -/
def Body.publishWrite (b : Body w) : Body w :=
  { b with
    widx := b.idxAdd b.widx b.writer.n
    ghost := { b.ghost with wlog := b.ghost.wlog + b.writer.n.toNat }
    writer := { b.writer with st := .idle } }.respondOn .writer .ok b.writer.n 0 0 0 0

/-- The reader machine's publish step (R195, R85), with its response on port R. -/
def Body.publishRead (b : Body w) : Body w :=
  { b with
    ridx := b.idxAdd b.ridx b.reader.n
    ghost := { b.ghost with rlog := b.ghost.rlog + b.reader.n.toNat }
    reader := { b.reader with st := .idle } }.respondOn .reader .ok b.reader.n 0 0 0 0

/-- The step a port machine takes in its state (R40, R41); in `IDLE` it has none. -/
def Body.machineStep (b : Body w) : Side → Body w
  | .writer =>
    match b.writer.st with
    | .idle => b
    | .copy => b.copyWrite
    | .publish => b.publishWrite
  | .reader =>
    match b.reader.st with
    | .idle => b
    | .copy => b.copyRead
    | .publish => b.publishRead

/-! ### The commands -/

/-- WRITE (R190): its accept step; the writer machine takes the rest. -/
def execWrite (s : State) : Host.Outcome State Fault Refusal :=
  .next (s.update fun b => b.constructedCommand .write (b.acceptWrite b.opa b.opb b.opc))

/-- READ (R195): its accept step; the reader machine takes the rest. -/
def execRead (s : State) : Host.Outcome State Fault Refusal :=
  .next (s.update fun b => b.constructedCommand .read (b.acceptRead b.opa b.opb))

/-- READ_INTO (R198): its accept step; the reader machine takes the rest. -/
def execReadInto (s : State) : Host.Outcome State Fault Refusal :=
  .next (s.update fun b => b.constructedCommand .readInto (b.acceptReadInto b.opa b.opb))

end Sys2Proof.Machine
end

