-- ==== Sys2Proof/Machine/Agents.lean ====
section
/-! DEFINITION. The agents' steps other than a command's own (60_exceptions.md R300 to R302): a client
presents a command or accesses memory, a port machine steps, a port accepts a command; and the fetch
of the next one from the schedule. -/

namespace Sys2Proof.Machine

variable {w : Width}

/-! ### Clients -/

/-- The client of `p` presents command `c` (30_encoding.md R105). While an earlier one is still on
the lines unaccepted the port cannot take another: the move is none (log entry 7). -/
def Body.present (b : Body w) (p : PortId) (c : Command w) : Body w :=
  if (b.port p).presented then b
  else b.setPort p { b.port p with presented := true, lines := c }

/-- `LD.B a` by the client of `p` (R111, R291): the byte's current value, a fault outside its rights. -/
def Body.clientLoad (b : Body w) (p : PortId) (a : Word w) : Body w :=
  (b.recordIf (!b.mayAccess p false a) .storageAccess).setPort p
    { b.port p with loaded := b.byteAt a }

/-- `ST.B a, v` by the client of `p` (R111, R291): the byte is stored, a fault outside its rights. -/
def Body.clientStore (b : Body w) (p : PortId) (a : Word w) (v : Byte) : Body w :=
  (b.recordIf (!b.mayAccess p true a) .storageAccess).putByte a v

/-! ### Acceptance -/

/-- The machine of port `p` is `IDLE`; the control port has no machine (R42, R105). -/
def Body.portIdle (b : Body w) : PortId → Bool
  | .writer => decide (b.writer.st = .idle)
  | .reader => decide (b.reader.st = .idle)
  | .control => true

/-- Port `p` can accept: a command is presented and its machine is `IDLE` (R105). -/
def Body.ready (b : Body w) (p : PortId) : Bool := (b.port p).presented && b.portIdle p

/-- Port `p` takes the command off its lines; it is the one `exec` runs. -/
def Body.accept (b : Body w) (p : PortId) : Body w :=
  { b.setPort p { b.port p with presented := false } with active := p }

/-! ### The schedule -/

/-- One agent's step other than an acceptance; an acceptance that is not possible leaves the command
held (R105). -/
def Body.agentMove (b : Body w) : Move w → Body w
  | .present p c => b.present p c
  | .accept _ => b
  | .machine d => b.machineStep d
  | .load p a => b.clientLoad p a
  | .store p a v => b.clientStore p a v

/-- Take the next step from the schedule (20_memory.md R83); with none coming the machine waits
(R323). -/
def State.fetch (s : State) : Scheduled :=
  match s.body.sched with
  | [] => .took s
  | .accept p :: rest =>
    let b := { s.body with sched := rest }
    if b.ready p then .run (b.port p).lines.word ⟨s.width, b.accept p⟩ else .took ⟨s.width, b⟩
  | m :: rest => .took ⟨s.width, { s.body with sched := rest }.agentMove m⟩

/-! ### Placing a command from outside -/

/-- The port a word is placed on: the first its row names; port C for an illegal word. -/
def placementPort (word : BitVec 32) : PortId :=
  match decode word with
  | .ok i => i.ports.headD .control
  | .error _ => .control

/-- The machine of port `p` put to `IDLE`. -/
def Body.quiesce (b : Body w) : PortId → Body w
  | .writer => { b with writer := { b.writer with st := .idle } }
  | .reader => { b with reader := { b.reader with st := .idle } }
  | .control => b

/-- The word presented on port `p` and its acceptance put first in the schedule (log entry 18). -/
def Body.placeCommand (b : Body w) (p : PortId) (word : BitVec 32) : Body w :=
  let q := b.port p
  let b := (b.quiesce p).setPort p { q with presented := true, lines := { q.lines with word := word } }
  { b with sched := .accept p :: b.sched }

end Sys2Proof.Machine
end

