-- ==== Sys2Proof/Machine/Construction.lean ====
section
/-! DEFINITION. NEW and NEW_WITH_STORAGE (40_construction.md). -/

namespace Sys2Proof.Machine

variable {w : Width}

/-- The register loads a successful construction makes (R131, R135). -/
def Body.construct (b : Body w) (esz c base : Word w) (owned : Bool) : Body w :=
  { b.clearGhost with
    cap := c
    bmask := bigMask c
    smask := smallMask c
    esz := esz
    base := base
    owned := owned
    widx := 0
    ridx := 0
    constructed := true }

/-- The last two lines of NEW's rule: what the oracle's answer leads to (R131). -/
def Body.newGranted (esz c : Word w) : Body w × Option (Word w) → Body w
  | (b, none) => b.raise .allocFailed
  | (b, some base) => (b.construct esz c base true).ok base

/-- NEW's rule (R131) with `OPA = esz` and `OPB = c`. -/
def Body.new (b : Body w) (esz c : Word w) : Body w :=
  if b.constructed then b.raise .alreadyConstructed
  else if esz = 0 then b.raise .invalidElementSize
  else if !isPow2 c then b.raise .invalidCapacity
  else if w.size ≤ c.toNat * esz.toNat then b.raise .allocFailed
  else Body.newGranted esz c (b.allocRequest (c.toNat * esz.toNat))

/-- NEW_WITH_STORAGE's rule (R135, R136) with `OPA = esz`, `OPB = addr`, `OPC = nbytes`. -/
def Body.newWithStorage (b : Body w) (esz addr nbytes : Word w) : Body w :=
  if b.constructed then b.raise .alreadyConstructed
  else if esz = 0 then b.raise .invalidElementSize
  else if remainder nbytes esz ≠ 0 then b.raise .sizeMismatch
  else if !isPow2 (quotient nbytes esz) then b.raise .invalidCapacity
  else
    ((b.recordIf (rangeWraps addr nbytes.toNat) .regionWrap).construct
      esz (quotient nbytes esz) addr false).ok addr

/-- NEW (R131). -/
def execNew (s : State) : Host.Outcome State Fault Refusal :=
  .next (s.update fun b => b.command .new (b.new b.opa b.opb))

/-- NEW_WITH_STORAGE (R135). -/
def execNewWithStorage (s : State) : Host.Outcome State Fault Refusal :=
  .next (s.update fun b => b.command .newWithStorage (b.newWithStorage b.opa b.opb b.opc))

end Sys2Proof.Machine
end

