-- ==== Sys2Proof/Machine/Control.lean ====
section
/-! DEFINITION. The control commands FLUSH, DESTROY and READ_REG (44_control.md). -/

namespace Sys2Proof.Machine

variable {w : Width}

/-- "In flight" for FLUSH and DESTROY (R251): a machine is busy or a zero-copy transfer is open. -/
def Body.inFlight (b : Body w) : Bool :=
  decide (b.writer.st ≠ .idle) || decide (b.reader.st ≠ .idle) || b.ghost.wzc || b.ghost.rzc

/-- FLUSH's rule (R250). -/
def Body.flush (b : Body w) : Body w :=
  { (b.recordIf b.inFlight .flushInFlight).clearGhost with widx := 0, ridx := 0 }.ok 0

/-- DESTROY's release (R254): owned storage goes back to the oracle, borrowed storage does not. -/
def Body.releaseStorage (b : Body w) : Body w :=
  if b.owned then b.allocRelease b.base.toNat b.storageBytes else b

/-- DESTROY's register clears (R254). -/
def Body.unconstruct (b : Body w) : Body w :=
  { b.clearGhost with
    cap := 0
    widx := 0
    ridx := 0
    bmask := 0
    smask := 0
    esz := 0
    base := 0
    owned := false
    constructed := false }

/-- DESTROY's rule (R254). -/
def Body.destroy (b : Body w) : Body w :=
  ((b.recordIf b.inFlight .destroyInFlight).releaseStorage.unconstruct).ok 0

/-- READ_REG's rule (R257) with `OPA = k`. -/
def Body.readReg (b : Body w) (k : Word w) : Body w :=
  match b.layoutWord k.toNat with
  | some v => b.ok v
  | none => b.raise .invalidRegister

/-- FLUSH (R250). -/
def execFlush (s : State) : Host.Outcome State Fault Refusal :=
  .next (s.update fun b => b.constructedCommand .flush b.flush)

/-- DESTROY (R254). -/
def execDestroy (s : State) : Host.Outcome State Fault Refusal :=
  .next (s.update fun b => b.constructedCommand .destroy b.destroy)

/-- READ_REG (R257). -/
def execReadReg (s : State) : Host.Outcome State Fault Refusal :=
  .next (s.update fun b => b.constructedCommand .readReg (b.readReg b.opa))

end Sys2Proof.Machine
end

