-- ==== Sys2Proof/Machine/Queries.lean ====
section
/-! DEFINITION. LEN, ELEMENT_SIZE, WRITE_AVAILABLE and READ_AVAILABLE
(41_pointer_logic_and_queries.md R172 to R175). -/

namespace Sys2Proof.Machine

variable {w : Width}

/-- WRITE_AVAILABLE's rule (R172): on port W the result is also the writer's grant (R45). -/
def Body.writeAvailable (b : Body w) : Body w :=
  (if b.active = .writer then b.setWriteGrant b.qWA.toNat b.ghost.wzc else b).ok b.qWA

/-- READ_AVAILABLE's rule (R173): on port R the result is also the reader's grant (R45). -/
def Body.readAvailable (b : Body w) : Body w :=
  (if b.active = .reader then b.setReadGrant b.qRA.toNat b.ghost.rzc else b).ok b.qRA

/-- LEN (R174). -/
def execLen (s : State) : Host.Outcome State Fault Refusal :=
  .next (s.update fun b => b.constructedCommand .len (b.ok b.cap))

/-- ELEMENT_SIZE (R175). -/
def execElementSize (s : State) : Host.Outcome State Fault Refusal :=
  .next (s.update fun b => b.constructedCommand .elementSize (b.ok b.esz))

/-- WRITE_AVAILABLE (R172). -/
def execWriteAvailable (s : State) : Host.Outcome State Fault Refusal :=
  .next (s.update fun b => b.constructedCommand .writeAvailable b.writeAvailable)

/-- READ_AVAILABLE (R173). -/
def execReadAvailable (s : State) : Host.Outcome State Fault Refusal :=
  .next (s.update fun b => b.constructedCommand .readAvailable b.readAvailable)

end Sys2Proof.Machine
end

