-- ==== Sys2Proof/Machine/ZeroCopy.lean ====
section
/-! DEFINITION. The zero-copy commands GET_WRITE_REGIONS, ADVANCE_WRITE_INDEX, GET_READ_REGIONS and
ADVANCE_READ_INDEX (43_zero_copy.md). -/

namespace Sys2Proof.Machine

variable {w : Width}

/-- The response of both GET commands (R221): the count and the two regions of `Split(start, n)`. -/
def Body.answerRegions (b : Body w) (start n : Word w) : Body w :=
  let spans := b.split start n
  let r1 := b.region spans.1
  let r2 := b.secondRegion spans.2
  b.respondOn b.active .ok n r1.1 r1.2 r2.1 r2.2

/-- GET_WRITE_REGIONS's rule (R220) with `OPA = count`. -/
def Body.getWriteRegions (b : Body w) (count : Word w) : Body w :=
  let n := b.clamp count b.qWA
  (b.setWriteGrant n.toNat true).answerRegions b.widx n

/-- GET_READ_REGIONS's rule (R228) with `OPA = count`. -/
def Body.getReadRegions (b : Body w) (count : Word w) : Body w :=
  let n := b.clamp count b.qRA
  (b.setReadGrant n.toNat true).answerRegions b.ridx n

/-- ADVANCE_WRITE_INDEX's rule (R224, R225) with `OPA = count`: no bounds check; the overcommit is
recorded. `wgrant - count` on naturals is R45's "0 if negative". -/
def Body.advanceWriteIndex (b : Body w) (count : Word w) : Body w :=
  let excess := decide (b.ghost.wgrant < count.toNat) || decide (b.qWA < count)
  let b := b.recordIf excess .overcommitWrite
  { b with
    widx := b.idxAdd b.widx count
    ghost := { b.ghost with
      wlog := b.ghost.wlog + count.toNat
      wgrant := b.ghost.wgrant - count.toNat
      wzc := false } }.ok (b.idxAdd b.widx count)

/-- ADVANCE_READ_INDEX's rule (R232, R233) with `OPA = count`. -/
def Body.advanceReadIndex (b : Body w) (count : Word w) : Body w :=
  let excess := decide (b.ghost.rgrant < count.toNat) || decide (b.qRA < count)
  let b := b.recordIf excess .overcommitRead
  { b with
    ridx := b.idxAdd b.ridx count
    ghost := { b.ghost with
      rlog := b.ghost.rlog + count.toNat
      rgrant := b.ghost.rgrant - count.toNat
      rzc := false } }.ok (b.idxAdd b.ridx count)

/-- GET_WRITE_REGIONS (R220). -/
def execGetWriteRegions (s : State) : Host.Outcome State Fault Refusal :=
  .next (s.update fun b => b.constructedCommand .getWriteRegions (b.getWriteRegions b.opa))

/-- ADVANCE_WRITE_INDEX (R224). -/
def execAdvanceWriteIndex (s : State) : Host.Outcome State Fault Refusal :=
  .next (s.update fun b => b.constructedCommand .advanceWriteIndex (b.advanceWriteIndex b.opa))

/-- GET_READ_REGIONS (R228). -/
def execGetReadRegions (s : State) : Host.Outcome State Fault Refusal :=
  .next (s.update fun b => b.constructedCommand .getReadRegions (b.getReadRegions b.opa))

/-- ADVANCE_READ_INDEX (R232). -/
def execAdvanceReadIndex (s : State) : Host.Outcome State Fault Refusal :=
  .next (s.update fun b => b.constructedCommand .advanceReadIndex (b.advanceReadIndex b.opa))

end Sys2Proof.Machine
end

