-- ==== Sys2Proof/Machine/Dispatch.lean ====
section
/-! DEFINITION. One arm per command: the accept step of its rule, on the port `Body.active`. -/

namespace Sys2Proof.Machine

def exec (i : Instr) (s : State) : Host.Outcome State Fault Refusal :=
  match i with
  | .new => Sys2Proof.Machine.execNew s
  | .newWithStorage => Sys2Proof.Machine.execNewWithStorage s
  | .destroy => Sys2Proof.Machine.execDestroy s
  | .flush => Sys2Proof.Machine.execFlush s
  | .readReg => Sys2Proof.Machine.execReadReg s
  | .len => Sys2Proof.Machine.execLen s
  | .elementSize => Sys2Proof.Machine.execElementSize s
  | .writeAvailable => Sys2Proof.Machine.execWriteAvailable s
  | .write => Sys2Proof.Machine.execWrite s
  | .getWriteRegions => Sys2Proof.Machine.execGetWriteRegions s
  | .advanceWriteIndex => Sys2Proof.Machine.execAdvanceWriteIndex s
  | .readAvailable => Sys2Proof.Machine.execReadAvailable s
  | .read => Sys2Proof.Machine.execRead s
  | .readInto => Sys2Proof.Machine.execReadInto s
  | .getReadRegions => Sys2Proof.Machine.execGetReadRegions s
  | .advanceReadIndex => Sys2Proof.Machine.execAdvanceReadIndex s

end Sys2Proof.Machine
end

