-- ==== Sys2Proof/Machine/Step.lean ====
section
/-! DEFINITION. One step of the machine: the next atomic step of the schedule (20_memory.md R83). -/

namespace Sys2Proof.Machine

/-- One atomic step: where a port accepts a command, its word is decoded (R106) and the command's
accept step runs, or the word is illegal (R107); any other agent's step is taken as it stands. -/
def step (s : State) : Host.Outcome State Fault Refusal :=
  match s.fetch with
  | .took t => .next t
  | .run word t =>
    match decode word with
    | .ok i => exec i t
    | .error _ => .next t.illegalCommand

/-- `s` with the instruction word `w` (bits at and above `nbits` zero) presented on a port its row
names and accepted by the very next step (log entry 18). -/
def State.withFetchWord (s : State) (nbits w : Nat) : State :=
  let word := BitVec.ofNat 32 (w % 2 ^ nbits)
  s.update fun b => b.placeCommand (placementPort word) word

end Sys2Proof.Machine
end

