-- ==== Sys2Proof/Machine/Assembler.lean ====
section
/-! DEFINITION. The assembler syntax of 30_encoding.md R109 and the pseudo-instructions of R110: from
a line's text to the port and the command a client presents. What R109 and R110 leave open of a line's
text is a DESIGN CHOICE of log entry 19. -/

namespace Sys2Proof.Machine

/-- The command of an encodable line: its word, and its operands on OPA, OPB, OPC in order; a line
the command does not use carries 0 (R101: it has no effect; the 0 is a DESIGN CHOICE, log entry 19). -/
def lineCommand (w : Width) (l : Line) : Option (PortId × Command w) :=
  if l.encodable w then
    some (l.port, ⟨encode l.instr, BitVec.ofNat _ (l.operands.getD 0 0),
      BitVec.ofNat _ (l.operands.getD 1 0), BitVec.ofNat _ (l.operands.getD 2 0)⟩)
  else none

/-- The expansion of a pseudo-instruction (R110). The assembler computes `k*esz` and refuses the
line where it does not fit in `W` bits. R110 bounds nothing else of W.TRY_WRITE: `esz` stands on no
operand line, and it may be any number whose product with `k` fits, so with `k = 0` one that is no
`W`-bit value too. DESIGN CHOICE, log entry 19. -/
def expandPseudo (w : Width) : Pseudo → Option Line
  | .commit n => some ⟨.writer, .advanceWriteIndex, [n]⟩
  | .consume n => some ⟨.reader, .advanceReadIndex, [n]⟩
  | .drain dst => some ⟨.reader, .read, [dst, w.size - 1]⟩
  | .tryWrite src k esz =>
    if k * esz < w.size then some ⟨.writer, .write, [src, k * esz, k]⟩ else none

/-- The mnemonics of R103. -/
def mnemonics : List (String × Instr) :=
  [("NEW", .new), ("NEW_WITH_STORAGE", .newWithStorage), ("DESTROY", .destroy), ("FLUSH", .flush),
   ("READ_REG", .readReg), ("LEN", .len), ("ELEMENT_SIZE", .elementSize),
   ("WRITE_AVAILABLE", .writeAvailable), ("WRITE", .write),
   ("GET_WRITE_REGIONS", .getWriteRegions), ("ADVANCE_WRITE_INDEX", .advanceWriteIndex),
   ("READ_AVAILABLE", .readAvailable), ("READ", .read), ("READ_INTO", .readInto),
   ("GET_READ_REGIONS", .getReadRegions), ("ADVANCE_READ_INDEX", .advanceReadIndex)]

/-- The port letters `W`, `R`, `C` (R109). -/
def portOfLetter : Char → Option PortId
  | 'W' => some .writer
  | 'R' => some .reader
  | 'C' => some .control
  | _ => none

/-- Characters up to the first `sep`, and those after it (none where it does not occur). -/
def cutAt (sep : Char) : List Char → List Char × Option (List Char)
  | [] => ([], none)
  | c :: rest =>
    if c = sep then ([], some rest)
    else
      let (a, b) := cutAt sep rest
      (c :: a, b)

/-- A digit's value in the given radix. -/
def digitOf (radix : Nat) (c : Char) : Option Nat :=
  let v :=
    if '0' ≤ c ∧ c ≤ '9' then some (c.toNat - '0'.toNat)
    else if 'a' ≤ c ∧ c ≤ 'f' then some (c.toNat - 'a'.toNat + 10)
    else if 'A' ≤ c ∧ c ≤ 'F' then some (c.toNat - 'A'.toNat + 10)
    else none
  v.filter (fun d => d < radix)

/-- Digits, most significant first, after the value read so far. -/
def digitsFrom (radix : Nat) (acc : Nat) : List Char → Option Nat
  | [] => some acc
  | c :: rest =>
    match digitOf radix c with
    | some d => digitsFrom radix (acc * radix + d) rest
    | none => none

/-- A list of characters without the spaces at its two ends. -/
def trimSpaces (cs : List Char) : List Char :=
  ((cs.dropWhile (· == ' ')).reverse.dropWhile (· == ' ')).reverse

/-- A decimal or `0x` hexadecimal operand (R109). R109 gives no grammar of spaces: those around an
operand are dropped, and one inside it refuses the line. DESIGN CHOICE, log entry 19. -/
def parseOperand (cs : List Char) : Option Nat :=
  match trimSpaces cs with
  | [] => none
  | '0' :: 'x' :: [] => none
  | '0' :: 'x' :: ds => digitsFrom 16 0 ds
  | ds => digitsFrom 10 0 ds

/-- Operands separated by commas; `fuel` bounds their number. -/
def parseOperands : Nat → List Char → Option (List Nat)
  | 0, _ => none
  | fuel + 1, cs =>
    match parseOperand (cutAt ',' cs).1, (cutAt ',' cs).2 with
    | none, _ => none
    | some v, none => some [v]
    | some v, some rest => (parseOperands fuel rest).map (fun vs => v :: vs)

/-- A pseudo-instruction by its port, name and operands (R110). -/
def pseudoNamed (p : PortId) (name : List Char) (ops : List Nat) : Option Pseudo :=
  match p, String.ofList name, ops with
  | .writer, "COMMIT", [n] => some (.commit n)
  | .reader, "CONSUME", [n] => some (.consume n)
  | .reader, "DRAIN", [dst] => some (.drain dst)
  | .writer, "TRY_WRITE", [src, k, esz] => some (.tryWrite src k esz)
  | _, _, _ => none

/-- The line a text `<port>.<MNEMONIC> <OPA>, <OPB>, <OPC>` stands for (R109), a pseudo-instruction
expanded (R110). -/
def parseLine (w : Width) : List Char → Option Line
  | letter :: '.' :: rest =>
    match portOfLetter letter with
    | none => none
    | some p =>
      let (name, tail) := cutAt ' ' rest
      let operands := match tail with
        | none => some []
        | some cs => parseOperands 3 cs
      match operands with
      | none => none
      | some ops =>
        match mnemonics.find? (fun m => m.1.toList == name) with
        | some m => some ⟨p, m.2, ops⟩
        | none =>
          match pseudoNamed p name ops with
          | some q => expandPseudo w q
          | none => none
  | _ => none

/-- Assemble one line of text. -/
def assemble (w : Width) (text : String) : Option (PortId × Command w) :=
  match parseLine w text.toList with
  | some l => lineCommand w l
  | none => none

end Sys2Proof.Machine
end

