-- ==== Sys2Proof/Safety.lean ====
section
/-! DEFINITION. What claims about the machine are stated in: the state invariants, the first failing
check of a command, the frames, the ring's contents, and the end of a run. -/

namespace Sys2Proof.Machine

variable {w : Width}

/-! ### The invariant of every state (10_state.md R31 to R38, R46, R166) -/

/-- The registers of a constructed block: R33 to R36, R73, and R46 for the two indices. -/
structure Body.Configured (b : Body w) : Prop where
  capacity : isPow2 b.cap = true
  bigMask : b.bmask.toNat = 2 * b.cap.toNat - 1
  smallMask : b.smask.toNat = b.cap.toNat - 1
  elementSize : 0 < b.esz.toNat
  storageFits : b.storageBytes < w.size
  writeIndex : b.widx.toNat = b.ghost.wlog % (2 * b.cap.toNat)
  readIndex : b.ridx.toNat = b.ghost.rlog % (2 * b.cap.toNat)

/-- Holds in every reachable state, faulted or not: the memory is canonical, an unconstructed block
has every register 0 (R50), a constructed one is configured, the oracle's live regions are apart
(R10), and owned storage is one of them (R38, R74). -/
structure Body.Inv (b : Body w) : Prop where
  memory : memWf w b.mem = true
  unconstructed : b.constructed = false →
    b.cap = 0 ∧ b.widx = 0 ∧ b.ridx = 0 ∧ b.bmask = 0 ∧ b.smask = 0 ∧ b.esz = 0 ∧ b.base = 0 ∧
      b.owned = false
  constructed : b.constructed = true → b.Configured
  liveApart : b.oracle.live.Pairwise fun x y => rangesApart x y = true
  liveFits : ∀ r ∈ b.oracle.live, 0 < r.2 ∧ r.1 + r.2 ≤ w.size
  ownedLive : b.owned = true → (b.base.toNat, b.storageBytes) ∈ b.oracle.live

/-- What a busy port machine is known to be doing in an unfaulted state: at most `avail` elements,
no grant held and no zero-copy transfer open beside it (R45), a buffer that is not bad (R192), and
the byte count of its phase (R190, R195). -/
structure PortMachine.Busy (m : PortMachine w) (b : Body w) (avail grant : Nat) (zc : Bool) :
    Prop where
  constructed : b.constructed = true
  count : m.n.toNat ≤ avail
  noGrant : grant = 0
  noZeroCopy : zc = false
  buffer : b.badBuffer m.buf (m.n.toNat * b.esz.toNat) = false
  copying : m.st = .copy → m.k.toNat < m.n.toNat * b.esz.toNat
  publishing : m.st = .publish → m.k.toNat = m.n.toNat * b.esz.toNat

/-- The filled count, `WLOG - RLOG` (R168). -/
def Body.filled (b : Body w) : Nat := b.ghost.wlog - b.ghost.rlog

/-- What holds besides in a state whose fault set is empty: the contract invariant of R47, storage
that does not wrap (R136), and the busy machines' share of the ring. -/
structure Body.Clean (b : Body w) : Prop where
  ordered : b.constructed = true → b.ghost.rlog ≤ b.ghost.wlog ∧ b.filled ≤ b.cap.toNat
  grants : b.constructed = true →
    b.ghost.wgrant ≤ b.cap.toNat - b.filled ∧ b.ghost.rgrant ≤ b.filled
  unwrapped : b.constructed = true → b.base.toNat + b.storageBytes ≤ w.size
  writing : b.writer.st ≠ .idle →
    b.writer.Busy b (b.cap.toNat - b.filled) b.ghost.wgrant b.ghost.wzc
  reading : b.reader.st ≠ .idle → b.reader.Busy b b.filled b.ghost.rgrant b.ghost.rzc

/-- The invariant of every state, and the contract invariant where no fault is recorded. -/
structure Body.Sound (b : Body w) : Prop where
  inv : b.Inv
  clean : b.ghost.faults = .empty → b.Clean

/-! ### The first failing check (60_exceptions.md R282, R285, R286) -/

/-- NEW and NEW_WITH_STORAGE. -/
def constructs : Instr → Bool
  | .new | .newWithStorage => true
  | _ => false

/-- The capacity a construction asks for (R131, R135). -/
def Body.requestedCapacity (b : Body w) : Instr → Word w
  | .newWithStorage => quotient b.opc b.opa
  | _ => b.opb

/-- The allocator does not serve NEW's request (R282): its size is `2^W` or more, or the oracle
refuses. -/
def Body.allocFails (b : Body w) : Bool :=
  decide (w.size ≤ b.opb.toNat * b.opa.toNat) ||
    (b.allocRequest (b.opb.toNat * b.opa.toNat)).2.isNone

/-- The data-size checks of WRITE (R193) and READ_INTO (R199). -/
def Body.dataMismatch (b : Body w) : Instr → Bool
  | .write => decide (remainder b.opb b.esz ≠ 0) || decide (quotient b.opb b.esz < b.opc)
  | .readInto => decide (remainder b.opb b.esz ≠ 0)
  | _ => false

/-- The checks 2 to 9 of R286 for a legal word, in that order: the condition and its status. -/
def Body.checks (b : Body w) (i : Instr) : List (Bool × Status) :=
  [(decide (b.active ∉ i.ports), .wrongPort),
   (constructs i && b.constructed, .alreadyConstructed),
   (!constructs i && !b.constructed, .notConstructed),
   (constructs i && decide (b.opa = 0), .invalidElementSize),
   (decide (i = .newWithStorage) && decide (remainder b.opc b.opa ≠ 0), .sizeMismatch),
   (constructs i && !isPow2 (b.requestedCapacity i), .invalidCapacity),
   (decide (i = .new) && b.allocFails, .allocFailed),
   (b.dataMismatch i, .dataSizeMismatch),
   (decide (i = .readReg) && decide (7 ≤ b.opa.toNat), .invalidRegister)]

/-- The status of the first check that fails. -/
def Body.firstFailure (b : Body w) (i : Instr) : Option Status :=
  ((b.checks i).find? (·.1)).map (·.2)

/-! ### Responses and frames -/

/-- A port shows this response. -/
def Answered (q : Port w) (status : BitVec 8) (r0 r1 r2 r3 r4 : Word w) : Prop :=
  q.status = status ∧ q.res0 = r0 ∧ q.res1 = r1 ∧ q.res2 = r2 ∧ q.res3 = r3 ∧ q.res4 = r4

/-- The configuration registers (R33 to R39) are unchanged. -/
def SameConfig (b b' : Body w) : Prop :=
  b'.cap = b.cap ∧ b'.bmask = b.bmask ∧ b'.smask = b.smask ∧ b'.esz = b.esz ∧ b'.base = b.base ∧
    b'.owned = b.owned ∧ b'.constructed = b.constructed

/-- Every instance register (R30) is unchanged. -/
def SameRegisters (b b' : Body w) : Prop := SameConfig b b' ∧ b'.widx = b.widx ∧ b'.ridx = b.ridx

/-- Both port machines (R40, R41) are unchanged. -/
def SameMachines (b b' : Body w) : Prop := b'.writer = b.writer ∧ b'.reader = b.reader

/-- Every byte of memory is unchanged. -/
def SameMemory (b b' : Body w) : Prop := ∀ a : Nat, memRead b'.mem a = memRead b.mem a

/-- On the ports nothing changed but the response registers of port `p`. -/
def OnlyAnswers (p : PortId) (b b' : Body w) : Prop :=
  (∀ q, q ≠ p → b'.port q = b.port q) ∧ (b'.port p).presented = (b.port p).presented ∧
    (b'.port p).lines = (b.port p).lines ∧ (b'.port p).loaded = (b.port p).loaded

/-- The model's own fields and the oracle are unchanged. -/
def SameSurroundings (b b' : Body w) : Prop :=
  b'.oracle = b.oracle ∧ b'.active = b.active ∧ b'.sched = b.sched

/-- Nothing changed but the response registers of the port whose command runs. -/
def OnlyResponds (b b' : Body w) : Prop :=
  SameRegisters b b' ∧ SameMachines b b' ∧ b'.ghost = b.ghost ∧ SameMemory b b' ∧
    OnlyAnswers b.active b b' ∧ SameSurroundings b b'

/-! ### The ring's contents (20_memory.md R72, R91) -/

/-- Byte `k` of logical element `i`: at `BASE + (i & SMASK)*ESZ + k` (R72). -/
def Body.elementByte (b : Body w) (i k : Nat) : Byte :=
  memRead b.mem ((b.base.toNat + (i % b.cap.toNat) * b.esz.toNat + k) % w.size)

/-- The bytes of the elements the reader can still read, oldest first: logical elements
`RLOG .. WLOG - 1`. -/
def Body.contents (b : Body w) : List Byte :=
  (List.range b.filled).flatMap fun d =>
    (List.range b.esz.toNat).map fun k => b.elementByte (b.ghost.rlog + d) k

/-- The machine without its ghost state (R14: never an input to a hardware output). -/
def Body.hardware (b : Body w) : Body w := { b with ghost := .reset }

/-! ### The end of a run (60_exceptions.md R306) -/

/-- The move is a client presenting a command. -/
def Move.isPresent : Move w → Bool
  | .present _ _ => true
  | _ => false

/-- The run has ended: no command is presented or still to come, every response is out, and no
zero-copy transfer is open. -/
def Body.runEnded (b : Body w) : Bool :=
  !b.portW.presented && !b.portR.presented && !b.portC.presented &&
    b.sched.all (fun m => !m.isPresent) && !b.inFlight

/-- The run has ended and is good: no fault is recorded. -/
def Body.goodRun (b : Body w) : Bool := b.runEnded && decide (b.ghost.faults = .empty)

end Sys2Proof.Machine
end

