-- ==== Sys2Proof/Certificates/Slice0/Obligations.lean ====
section
/-! DEFINITION. The statements for the provers, in the order of the spec's files. Each docstring names
the rule a statement follows. None needs a value that log entries 1, 2, 3, 6, 7, 8 and 9 choose or leave
free: they range over both widths, every memory, every schedule and every answer of the oracle. -/

open Sys2Proof Sys2Proof.Machine

variable {w : Width}

/-! ### Encoding (30_encoding.md) -/

/-- R103, R106: decoding and encoding agree, on every 32-bit word. -/
def Obligations.DecodeInvertsEncodeOnEveryWord : Prop :=
  ∀ (word : BitVec 32) (i : Instr), decode word = .ok i ↔ word = encode i

/-- The word of each row, `zext_32(OPC8)`, as the table of R103 writes it. -/
def tableWord : Instr → BitVec 32
  | .new => 0x00000001
  | .newWithStorage => 0x00000002
  | .destroy => 0x00000003
  | .flush => 0x00000004
  | .readReg => 0x00000005
  | .len => 0x00000008
  | .elementSize => 0x00000009
  | .writeAvailable => 0x00000010
  | .write => 0x00000011
  | .getWriteRegions => 0x00000012
  | .advanceWriteIndex => 0x00000013
  | .readAvailable => 0x00000020
  | .read => 0x00000021
  | .readInto => 0x00000022
  | .getReadRegions => 0x00000023
  | .advanceReadIndex => 0x00000024

/-- The ports of each row, as the table of R103 writes them ("any" is all three). -/
def tablePorts : Instr → List PortId
  | .new => [.control]
  | .newWithStorage => [.control]
  | .destroy => [.control]
  | .flush => [.control]
  | .readReg => [.control]
  | .len => [.writer, .reader, .control]
  | .elementSize => [.writer, .reader, .control]
  | .writeAvailable => [.writer, .reader, .control]
  | .write => [.writer]
  | .getWriteRegions => [.writer]
  | .advanceWriteIndex => [.writer]
  | .readAvailable => [.writer, .reader, .control]
  | .read => [.reader]
  | .readInto => [.reader]
  | .getReadRegions => [.reader]
  | .advanceReadIndex => [.reader]

/-- How many of the columns OPA, OPB and OPC the table of R103 fills in each row. -/
def tableOperands : Instr → Nat
  | .new => 2
  | .newWithStorage => 3
  | .destroy => 0
  | .flush => 0
  | .readReg => 1
  | .len => 0
  | .elementSize => 0
  | .writeAvailable => 0
  | .write => 3
  | .getWriteRegions => 1
  | .advanceWriteIndex => 1
  | .readAvailable => 0
  | .read => 2
  | .readInto => 2
  | .getReadRegions => 1
  | .advanceReadIndex => 1

/-- R103, R106, R107: all sixteen rows, each with its word, its ports and its operands; a word with an
unused opcode and one with a reserved bit set (95, 2.1) are illegal. -/
def Obligations.TableWordsDecode : Prop :=
  (∀ i : Instr, decode (tableWord i) = .ok i ∧ encode i = tableWord i ∧
    (∀ p, p ∈ i.ports ↔ p ∈ tablePorts i) ∧ i.operandCount = tableOperands i) ∧
  decode 0x00000006#32 = .error .unusedOpcode ∧ decode 0x00000111#32 = .error .reservedBits

/-- R105, R40 to R42: the machine of port `p` is `IDLE`; port C has no machine. -/
abbrev MachineIdle (b : Body w) (p : PortId) : Prop :=
  (p = .writer → b.writer.st = .idle) ∧ (p = .reader → b.reader.st = .idle)

/-- R107: which words are illegal; and that one, on any port that accepts it, answers
`IllegalCommand` with every result 0, and nothing else changes but that the command is taken. The
next step is the first of the schedule (log entry 5). -/
def Obligations.IllegalWordsAnswerIllegalCommand : Prop :=
  (∀ word : BitVec 32, (∃ r, decode word = .error r) ↔
    word.extractLsb' 8 24 ≠ 0 ∨
      (let o := (word.extractLsb' 0 8).toNat
       o = 0x00 ∨ o = 0x06 ∨ o = 0x07 ∨ (0x0A ≤ o ∧ o ≤ 0x0F) ∨ (0x14 ≤ o ∧ o ≤ 0x1F) ∨ 0x25 ≤ o)) ∧
  (∀ (w : Width) (b : Body w) (p : PortId) (rest : List (Move w)) (r : Reject),
    b.sched = .accept p :: rest → (b.port p).presented = true → MachineIdle b p →
    decode (b.port p).lines.word = .error r →
    ∃ b' : Body w, step ⟨w, b⟩ = .next ⟨w, b'⟩ ∧ Answered (b'.port p) 0x14 0 0 0 0 0 ∧
      SameRegisters b b' ∧ SameMachines b b' ∧ b'.ghost = b.ghost ∧ SameMemory b b' ∧
      b'.oracle = b.oracle ∧ b'.sched = rest ∧ (∀ q, q ≠ p → b'.port q = b.port q) ∧
      (b'.port p).presented = false ∧ (b'.port p).lines = (b.port p).lines ∧
      (b'.port p).loaded = (b.port p).loaded)

/-- R101, R109: an encodable line's command decodes to the line's instruction and carries each of its
operands, at every value, on its own line. -/
def Obligations.EncodedLineCarriesItsOperands : Prop :=
  ∀ (w : Width) (l : Line), l.encodable w = true →
    ∃ c : Command w, lineCommand w l = some (l.port, c) ∧ decode c.word = .ok l.instr ∧
      (∀ v, l.operands[0]? = some v → c.opa.toNat = v) ∧
      (∀ v, l.operands[1]? = some v → c.opb.toNat = v) ∧
      (∀ v, l.operands[2]? = some v → c.opc.toNat = v)

/-- R110: what each pseudo-instruction presents, and when W.TRY_WRITE is refused. The 0 on the lines
OPB and OPC that a row does not use, and that `esz` is bounded through `k*esz` alone, are the model's
choice (log entry 19, DESIGN CHOICE). -/
def Obligations.PseudoInstructionsExpand : Prop :=
  ∀ (w : Width) (n dst src k esz : Nat), n < w.size → dst < w.size → src < w.size → k < w.size →
    (expandPseudo w (.commit n)).bind (lineCommand w) =
        some (.writer, ⟨0x13, BitVec.ofNat _ n, 0, 0⟩) ∧
      (expandPseudo w (.consume n)).bind (lineCommand w) =
        some (.reader, ⟨0x24, BitVec.ofNat _ n, 0, 0⟩) ∧
      (expandPseudo w (.drain dst)).bind (lineCommand w) =
        some (.reader, ⟨0x21, BitVec.ofNat _ dst, BitVec.allOnes _, 0⟩) ∧
      (k * esz < w.size → (expandPseudo w (.tryWrite src k esz)).bind (lineCommand w) =
        some (.writer, ⟨0x11, BitVec.ofNat _ src, BitVec.ofNat _ (k * esz), BitVec.ofNat _ k⟩)) ∧
      (w.size ≤ k * esz → expandPseudo w (.tryWrite src k esz) = none)

/-! ### Steps and the handshake -/

/-- R105, R106: where the next step of the schedule accepts a command whose word decodes to `i`,
the step is `exec i` after the command is taken off the lines and its port made the active one.
The next step is the first of the schedule (log entry 5). -/
def Obligations.StepRunsTheDecodedCommand : Prop :=
  ∀ (w : Width) (b : Body w) (p : PortId) (rest : List (Move w)) (i : Instr),
    b.sched = .accept p :: rest → (b.port p).presented = true → MachineIdle b p →
    decode (b.port p).lines.word = .ok i →
    step ⟨w, b⟩ = exec i ⟨w, { (b.setPort p { b.port p with presented := false }) with
      active := p, sched := rest }⟩

/-- R105: a port that is not `IDLE` does not accept the command presented on it, and neither drops
nor rejects it; a client's presentation puts the command on free lines and changes nothing else.
The next step is the first of the schedule (log entry 5). -/
def Obligations.BusyPortHoldsTheCommand : Prop :=
  ∀ (w : Width) (b : Body w) (p : PortId) (rest : List (Move w)),
    (b.sched = .accept p :: rest → ¬ MachineIdle b p →
      step ⟨w, b⟩ = .next ⟨w, { b with sched := rest }⟩) ∧
    (∀ c : Command w, b.sched = .present p c :: rest → (b.port p).presented = false →
      ∃ b' : Body w, step ⟨w, b⟩ = .next ⟨w, b'⟩ ∧
        b'.port p = { b.port p with presented := true, lines := c } ∧
        (∀ q, q ≠ p → b'.port q = b.port q) ∧ SameRegisters b b' ∧ SameMachines b b' ∧
        b'.ghost = b.ghost ∧ SameMemory b b' ∧ b'.oracle = b.oracle ∧ b'.active = b.active ∧
        b'.sched = rest)

/-- R292, R293, R302: no step ever stops the machine, and `W` is constant. The next step is the
first of the schedule (log entry 5). -/
def Obligations.EveryStepAnswersANextState : Prop :=
  ∀ s : State, ∃ t : State, step s = .next t ∧ t.width = s.width

/-- R101: a line the command does not use has no effect: other values on the unused lines change
nothing but those lines themselves. -/
def Obligations.UnusedOperandLinesAreIgnored : Prop :=
  ∀ (w : Width) (b t : Body w) (i : Instr) (x y z : Word w),
    let q := b.port b.active
    let c : Command w := ⟨q.lines.word, if 0 < i.operandCount then q.lines.opa else x,
      if 1 < i.operandCount then q.lines.opb else y, if 2 < i.operandCount then q.lines.opc else z⟩
    exec i ⟨w, b⟩ = .next ⟨w, t⟩ →
    exec i ⟨w, b.setPort b.active { q with lines := c }⟩ =
      .next ⟨w, t.setPort b.active { t.port b.active with lines := c }⟩

/-! ### Status (60_exceptions.md) -/

/-- The number of each status, as the table of R280 writes it. -/
def tableCode : Status → BitVec 8
  | .ok => 0x00
  | .invalidCapacity => 0x01
  | .sizeMismatch => 0x02
  | .dataSizeMismatch => 0x03
  | .invalidElementSize => 0x10
  | .allocFailed => 0x11
  | .notConstructed => 0x12
  | .alreadyConstructed => 0x13
  | .illegalCommand => 0x14
  | .wrongPort => 0x15
  | .invalidRegister => 0x16

/-- R280, R284, R285, R286: the first failing check, in the order of R286, is the command's status,
by its number in R280; every result is 0 and nothing else changes but, for `AllocFailed`, which
answers the oracle has still to give (a list: log entry 4). -/
def Obligations.FirstFailingCheckIsReported : Prop :=
  ∀ (w : Width) (b : Body w) (i : Instr) (st : Status), b.firstFailure i = some st →
    ∃ b' : Body w, exec i ⟨w, b⟩ = .next ⟨w, b'⟩ ∧ Answered (b'.port b.active) (tableCode st) 0 0 0 0 0 ∧
      SameRegisters b b' ∧ SameMachines b b' ∧ b'.ghost = b.ghost ∧ SameMemory b b' ∧
      OnlyAnswers b.active b b' ∧ b'.active = b.active ∧ b'.sched = b.sched ∧
      b'.oracle.live = b.oracle.live ∧ (st ≠ .allocFailed → b'.oracle = b.oracle)

/-- R104, R103: a command on a port that the Ports column of its row does not name answers
`WrongPort`, whatever the state and the operands, and has no other effect. -/
def Obligations.WrongPortIsReportedFirst : Prop :=
  ∀ (w : Width) (b : Body w) (i : Instr), b.active ∉ tablePorts i →
    ∃ b' : Body w, exec i ⟨w, b⟩ = .next ⟨w, b'⟩ ∧ Answered (b'.port b.active) 0x15 0 0 0 0 0 ∧
      OnlyResponds b b'

/-- R256, R285: without a constructed block every command but the two constructions answers
`NotConstructed` on every port that may issue it. -/
def Obligations.UnconstructedBlockAnswersNotConstructed : Prop :=
  ∀ (w : Width) (b : Body w) (i : Instr), b.constructed = false → i ≠ .new → i ≠ .newWithStorage →
    b.active ∈ i.ports →
    ∃ b' : Body w, exec i ⟨w, b⟩ = .next ⟨w, b'⟩ ∧ Answered (b'.port b.active) 0x12 0 0 0 0 0 ∧
      OnlyResponds b b'

/-! ### Construction (40_construction.md) -/

/-- R130: `IsPow2` is true exactly for 1, 2, 4, ..., 2^(W-1). -/
def Obligations.PowerOfTwoTestIsExact : Prop :=
  ∀ (w : Width) (c : Word w), isPow2 c = true ↔ ∃ k, k < w.bits ∧ c.toNat = 2 ^ k

/-- What a successful construction leaves, beside the oracle, the memory and the fault set (R131,
R135, R50): the configuration, both indices 0, the ghost items cleared, and the response. -/
def ConstructedWith (b b' : Body w) (esz c base : Word w) (owned : Bool) : Prop :=
  b'.constructed = true ∧ b'.cap = c ∧ b'.bmask.toNat = 2 * c.toNat - 1 ∧
    b'.smask.toNat = c.toNat - 1 ∧ b'.esz = esz ∧ b'.base = base ∧ b'.owned = owned ∧
    b'.widx = 0 ∧ b'.ridx = 0 ∧ b'.ghost.wlog = 0 ∧ b'.ghost.rlog = 0 ∧ b'.ghost.wgrant = 0 ∧
    b'.ghost.rgrant = 0 ∧ b'.ghost.wzc = false ∧ b'.ghost.rzc = false ∧
    Answered (b'.port b.active) 0x00 base 0 0 0 0 ∧ OnlyAnswers b.active b b' ∧
    SameMachines b b' ∧ b'.active = b.active ∧ b'.sched = b.sched

/-- R131: NEW on port C of an unconstructed block, with legal operands and an oracle that grants,
constructs with the granted storage: a region that does not wrap and meets none that is out (R10). It
holds the bytes the oracle brings, every other byte is unchanged, and no fault is recorded. The
oracle's answer and the bytes it brings are the model's form of R10 (log entries 3, 4). -/
def Obligations.NewConstructsWithGrantedStorage : Prop :=
  ∀ (w : Width) (b : Body w) (base : Word w) (bytes : List Byte) (rest : List (AllocAnswer w)),
    b.active = .control → b.constructed = false → memWf w b.mem = true →
    b.opa ≠ 0 → isPow2 b.opb = true → b.opb.toNat * b.opa.toNat < w.size →
    b.oracle.answers = .grant base bytes :: rest →
    base.toNat + b.opb.toNat * b.opa.toNat ≤ w.size →
    (∀ r ∈ b.oracle.live, base.toNat + b.opb.toNat * b.opa.toNat ≤ r.1 ∨ r.1 + r.2 ≤ base.toNat) →
    ∃ b' : Body w, exec .new ⟨w, b⟩ = .next ⟨w, b'⟩ ∧ ConstructedWith b b' b.opa b.opb base true ∧
      b'.ghost.faults = b.ghost.faults ∧ b'.oracle.answers = rest ∧
      b'.oracle.live = (base.toNat, b.opb.toNat * b.opa.toNat) :: b.oracle.live ∧
      (∀ k v, k < b.opb.toNat * b.opa.toNat → bytes[k]? = some v →
        memRead b'.mem (base.toNat + k) = v) ∧
      (∀ a, ¬ (base.toNat ≤ a ∧ a < base.toNat + b.opb.toNat * b.opa.toNat) →
        memRead b'.mem a = memRead b.mem a)

/-- R135, R136, R137: NEW_WITH_STORAGE on port C of an unconstructed block, with legal operands,
adopts the caller's region: no byte of memory and nothing of the oracle changes, and `MF_REGION_WRAP`
is recorded exactly where the region wraps. -/
def Obligations.NewWithStorageAdoptsTheRegion : Prop :=
  ∀ (w : Width) (b : Body w) (c : Word w),
    b.active = .control → b.constructed = false → b.opa ≠ 0 → isPow2 c = true →
    b.opc.toNat = c.toNat * b.opa.toNat →
    ∃ b' : Body w, exec .newWithStorage ⟨w, b⟩ = .next ⟨w, b'⟩ ∧
      ConstructedWith b b' b.opa c b.opb false ∧ SameMemory b b' ∧ b'.oracle = b.oracle ∧
      b'.ghost.faults = (if w.size < b.opb.toNat + b.opc.toNat then b.ghost.faults.add .regionWrap
        else b.ghost.faults)

/-- R132: after a construction with status `OK` the buffer is empty: on any port READ_AVAILABLE
answers 0 and WRITE_AVAILABLE answers `CAP`. -/
def Obligations.ConstructionLeavesTheBufferEmpty : Prop :=
  ∀ (w : Width) (b b' : Body w) (i : Instr) (p : PortId), (i = .new ∨ i = .newWithStorage) →
    exec i ⟨w, b⟩ = .next ⟨w, b'⟩ → (b'.port b.active).status = 0x00 →
    (∃ r : Body w, exec .readAvailable ⟨w, { b' with active := p }⟩ = .next ⟨w, r⟩ ∧
      Answered (r.port p) 0x00 0 0 0 0 0) ∧
    (∃ r : Body w, exec .writeAvailable ⟨w, { b' with active := p }⟩ = .next ⟨w, r⟩ ∧
      Answered (r.port p) 0x00 b'.cap 0 0 0 0)

/-! ### Mask and modulo logic (41_pointer_logic_and_queries.md) -/

/-- R161: the slot of any `W`-bit value is that value modulo `CAP`, and the same for the index value
reduced modulo `2*CAP` and for any logical index it represents. -/
def Obligations.SlotIsTheIndexModuloCapacity : Prop :=
  ∀ (w : Width) (b : Body w), b.Configured →
    (∀ i : Word w, (b.slot i).toNat = i.toNat % b.cap.toNat ∧ (b.slot i).toNat < b.cap.toNat) ∧
    (∀ logical : Nat, (b.slot (BitVec.ofNat _ (logical % (2 * b.cap.toNat)))).toNat =
      logical % b.cap.toNat)

/-- R163: index advance is addition modulo `2*CAP`; the wrap of the `W`-bit sum loses nothing. -/
def Obligations.IndexAdvanceIsModuloTwiceCapacity : Prop :=
  ∀ (w : Width) (b : Body w), b.Configured → ∀ i n : Word w,
    (b.idxAdd i n).toNat = (i.toNat + n.toNat) % (2 * b.cap.toNat)

/-- R164: for a count up to `CAP` the two spans lie in the storage and cover, in order, exactly the
slots of `s`, `s+1`, ..., `s+n-1`. -/
def Obligations.SplitCoversTheSlotsInOrder : Prop :=
  ∀ (w : Width) (b : Body w), b.Configured → ∀ s n : Word w, n.toNat ≤ b.cap.toNat →
    let sp := b.split s n
    sp.1.1.toNat + sp.1.2.toNat ≤ b.cap.toNat ∧ sp.2.1.toNat + sp.2.2.toNat ≤ b.cap.toNat ∧
      (List.range n.toNat).map (fun d => (s.toNat + d) % b.cap.toNat) =
        (List.range sp.1.2.toNat).map (sp.1.1.toNat + ·) ++
          (List.range sp.2.2.toNat).map (sp.2.1.toNat + ·)

/-- R200: the address of byte `j` of a transfer of at most `CAP` elements follows span 1 and then
span 2, ascending. -/
def Obligations.TransferAddressesFollowTheSpans : Prop :=
  ∀ (w : Width) (b : Body w), b.Configured → ∀ s n j : Word w, n.toNat ≤ b.cap.toNat →
    j.toNat < n.toNat * b.esz.toNat →
    let sp := b.split s n
    b.transferAddr s j =
      if j.toNat < sp.1.2.toNat * b.esz.toNat then
        b.base + BitVec.ofNat _ (sp.1.1.toNat * b.esz.toNat + j.toNat)
      else b.base + BitVec.ofNat _ (j.toNat - sp.1.2.toNat * b.esz.toNat)

/-- R168: in an unfaulted constructed state the query unit measures the logical indices. -/
def Obligations.QueryUnitMeasuresTheLogicalIndices : Prop :=
  ∀ (w : Width) (b : Body w), b.Sound → b.ghost.faults = .empty → b.constructed = true →
    b.ghost.rlog ≤ b.ghost.wlog ∧ b.qRA.toNat = b.ghost.wlog - b.ghost.rlog ∧
      b.qWA.toNat = b.cap.toNat - (b.ghost.wlog - b.ghost.rlog) ∧ b.qRA.toNat ≤ b.cap.toNat

/-- R169: at one instant the two outputs add up to `CAP`, exactly so where `Q_RA <= CAP`, which holds
in every state with an empty fault set. -/
def Obligations.QueryOutputsAddUpToCapacity : Prop :=
  ∀ (w : Width) (b : Body w), b.Sound →
    b.qRA + b.qWA = b.cap ∧
      (b.qRA.toNat ≤ b.cap.toNat → b.qRA.toNat + b.qWA.toNat = b.cap.toNat) ∧
      (b.ghost.faults = .empty → b.qRA.toNat ≤ b.cap.toNat)

/-- R170: empty and full are told apart by the index registers. -/
def Obligations.EmptyAndFullAreToldApart : Prop :=
  ∀ (w : Width) (b : Body w), b.Inv → b.constructed = true →
    (b.qEmpty = true ↔ b.widx = b.ridx) ∧
      (b.qFull = true ↔ b.widx = b.idxAdd b.ridx b.cap) ∧
      ¬ (b.qEmpty = true ∧ b.qFull = true) ∧
      (b.qFull = true → b.slot b.widx = b.slot b.ridx ∧ b.widx ≠ b.ridx)

/-- R171: an unconstructed block drives every query output 0, and the four query commands answer
`NotConstructed` on every port. -/
def Obligations.UnconstructedQueryOutputsAreZero : Prop :=
  ∀ (w : Width) (b : Body w) (i : Instr), b.constructed = false →
    b.qRA = 0 ∧ b.qWA = 0 ∧ b.qEmpty = false ∧ b.qFull = false ∧ b.qConstructed = false ∧
      (i = .len ∨ i = .elementSize ∨ i = .writeAvailable ∨ i = .readAvailable →
        ∃ b' : Body w, exec i ⟨w, b⟩ = .next ⟨w, b'⟩ ∧
          Answered (b'.port b.active) 0x12 0 0 0 0 0 ∧ OnlyResponds b b')

/-- R174, R175: LEN answers `CAP` and ELEMENT_SIZE answers `ESZ`, on every port, and nothing else
changes. -/
def Obligations.LenAndElementSizeAnswerTheConfiguration : Prop :=
  ∀ (w : Width) (b : Body w), b.constructed = true →
    (∃ b' : Body w, exec .len ⟨w, b⟩ = .next ⟨w, b'⟩ ∧
      Answered (b'.port b.active) 0x00 b.cap 0 0 0 0 ∧ OnlyResponds b b') ∧
    (∃ b' : Body w, exec .elementSize ⟨w, b⟩ = .next ⟨w, b'⟩ ∧
      Answered (b'.port b.active) 0x00 b.esz 0 0 0 0 ∧ OnlyResponds b b')

/-- R172, R45: WRITE_AVAILABLE answers the free count on every port; on port W it becomes the writer's
grant; nothing else changes. -/
def Obligations.WriteAvailableAnswersFreeElements : Prop :=
  ∀ (w : Width) (b : Body w), b.constructed = true →
    ∃ b' : Body w, exec .writeAvailable ⟨w, b⟩ = .next ⟨w, b'⟩ ∧
      Answered (b'.port b.active) 0x00 (b.cap - ((b.widx - b.ridx) &&& b.bmask)) 0 0 0 0 ∧
      b'.ghost = { b.ghost with wgrant := if b.active = .writer then
        (b.cap - ((b.widx - b.ridx) &&& b.bmask)).toNat else b.ghost.wgrant } ∧
      SameRegisters b b' ∧ SameMachines b b' ∧ SameMemory b b' ∧ OnlyAnswers b.active b b' ∧
      SameSurroundings b b'

/-- R173, R45: READ_AVAILABLE answers the filled count on every port; on port R it becomes the
reader's grant; nothing else changes. -/
def Obligations.ReadAvailableAnswersFilledElements : Prop :=
  ∀ (w : Width) (b : Body w), b.constructed = true →
    ∃ b' : Body w, exec .readAvailable ⟨w, b⟩ = .next ⟨w, b'⟩ ∧
      Answered (b'.port b.active) 0x00 ((b.widx - b.ridx) &&& b.bmask) 0 0 0 0 ∧
      b'.ghost = { b.ghost with rgrant := if b.active = .reader then
        ((b.widx - b.ridx) &&& b.bmask).toNat else b.ghost.rgrant } ∧
      SameRegisters b b' ∧ SameMachines b b' ∧ SameMemory b b' ∧ OnlyAnswers b.active b b' ∧
      SameSurroundings b b'

/-! ### Linear transfer (42_linear_transfer.md) -/

/-- R190, R45, R192: WRITE's accept step, where neither data-size check fails, loads the writer
machine with the clamped count, closes the writer's grants and records `MF_BUFFER_OVERLAP` exactly
where the buffer is bad. No response is out yet, and nothing else changes. What a storage
that wraps has in common with a buffer is DEDUCED (log entry 11). -/
def Obligations.WriteAcceptLoadsTheWriterMachine : Prop :=
  ∀ (w : Width) (b : Body w), b.active = .writer → b.constructed = true → b.esz ≠ 0 →
    b.opb.toNat % b.esz.toNat = 0 → b.opc.toNat ≤ b.opb.toNat / b.esz.toNat →
    ∃ (b' : Body w) (n : Word w), exec .write ⟨w, b⟩ = .next ⟨w, b'⟩ ∧
      n.toNat = min (min b.opc.toNat b.qWA.toNat) b.cap.toNat ∧
      b'.writer = ⟨if 0 < n.toNat * b.esz.toNat then .copy else .publish, n, 0, b.opa⟩ ∧
      b'.reader = b.reader ∧
      b'.ghost = { b.ghost with
        wgrant := 0
        wzc := false
        faults := if b.badBuffer b.opa (n.toNat * b.esz.toNat) then
          b.ghost.faults.add .bufferOverlap else b.ghost.faults } ∧
      SameRegisters b b' ∧ SameMemory b b' ∧ (∀ p, b'.port p = b.port p) ∧ SameSurroundings b b'

/-- R195, R45, R192: READ's accept step, the mirror of WRITE's without a data-size check (a storage
that wraps: DEDUCED, log entry 11). -/
def Obligations.ReadAcceptLoadsTheReaderMachine : Prop :=
  ∀ (w : Width) (b : Body w), b.active = .reader → b.constructed = true →
    ∃ (b' : Body w) (n : Word w), exec .read ⟨w, b⟩ = .next ⟨w, b'⟩ ∧
      n.toNat = min (min b.opb.toNat b.qRA.toNat) b.cap.toNat ∧
      b'.reader = ⟨if 0 < n.toNat * b.esz.toNat then .copy else .publish, n, 0, b.opa⟩ ∧
      b'.writer = b.writer ∧
      b'.ghost = { b.ghost with
        rgrant := 0
        rzc := false
        faults := if b.badBuffer b.opa (n.toNat * b.esz.toNat) then
          b.ghost.faults.add .bufferOverlap else b.ghost.faults } ∧
      SameRegisters b b' ∧ SameMemory b b' ∧ (∀ p, b'.port p = b.port p) ∧ SameSurroundings b b'

/-- R198, R199: READ_INTO, where its length is a multiple of the element size, is READ's accept step
with the number of whole elements the destination holds (a storage that wraps: DEDUCED, log entry
11). -/
def Obligations.ReadIntoAcceptTakesWholeElements : Prop :=
  ∀ (w : Width) (b : Body w), b.active = .reader → b.constructed = true → b.esz ≠ 0 →
    b.opb.toNat % b.esz.toNat = 0 →
    ∃ (b' : Body w) (n : Word w), exec .readInto ⟨w, b⟩ = .next ⟨w, b'⟩ ∧
      n.toNat = min (min (b.opb.toNat / b.esz.toNat) b.qRA.toNat) b.cap.toNat ∧
      b'.reader = ⟨if 0 < n.toNat * b.esz.toNat then .copy else .publish, n, 0, b.opa⟩ ∧
      b'.writer = b.writer ∧
      b'.ghost = { b.ghost with
        rgrant := 0
        rzc := false
        faults := if b.badBuffer b.opa (n.toNat * b.esz.toNat) then
          b.ghost.faults.add .bufferOverlap else b.ghost.faults } ∧
      SameRegisters b b' ∧ SameMemory b b' ∧ (∀ p, b'.port p = b.port p) ∧ SameSurroundings b b'

/-- R192: a buffer is bad exactly where it wraps the address space or has a byte in common with the
storage, so an empty one never is. For ranges that wrap, the common byte is meant modulo `2^W`:
DEDUCED, log entry 11. -/
def Obligations.BadBuffersWrapOrMeetTheStorage : Prop :=
  ∀ (w : Width) (b : Body w) (buf : Word w) (len : Nat), len < w.size →
    b.storageBytes < w.size →
    (b.badBuffer buf len = true ↔ w.size < buf.toNat + len ∨
      ∃ i j : Nat, i < len ∧ j < b.storageBytes ∧
        buf + BitVec.ofNat _ i = b.base + BitVec.ofNat _ j)

/-- R190, R191: a copy step of the writer machine moves byte `wk` from the client's buffer to the
storage, counts it, and goes to `PUBLISH` after the last one; nothing else changes. The next step
is the first of the schedule (log entry 5). Faulted states are included: that the `W`-bit count
wraps there and is compared with the exact product `wn*ESZ` is DEDUCED (log entry 10). -/
def Obligations.WriterCopyStepMovesOneByte : Prop :=
  ∀ (w : Width) (b : Body w) (rest : List (Move w)), b.Inv → b.constructed = true →
    b.sched = .machine .writer :: rest → b.writer.st = .copy →
    ∃ b' : Body w, step ⟨w, b⟩ = .next ⟨w, b'⟩ ∧
      (let a := b.slotAddr (b.widx + b.writer.k / b.esz) + b.writer.k % b.esz
       memRead b'.mem a.toNat = memRead b.mem (b.writer.buf + b.writer.k).toNat ∧
        ∀ x, x ≠ a.toNat → memRead b'.mem x = memRead b.mem x) ∧
      b'.writer = { b.writer with
        k := b.writer.k + 1
        st := if (b.writer.k + 1).toNat = b.writer.n.toNat * b.esz.toNat then .publish else .copy } ∧
      b'.reader = b.reader ∧ b'.ghost = b.ghost ∧ SameRegisters b b' ∧
      (∀ p, b'.port p = b.port p) ∧ b'.oracle = b.oracle ∧ b'.sched = rest

/-- R195, R191: a copy step of the reader machine moves byte `rk` from the storage to the client's
buffer, counts it, and goes to `PUBLISH` after the last one; nothing else changes. The next step
is the first of the schedule (log entry 5). Faulted states are included: that the `W`-bit count
wraps there and is compared with the exact product `rn*ESZ` is DEDUCED (log entry 10). -/
def Obligations.ReaderCopyStepMovesOneByte : Prop :=
  ∀ (w : Width) (b : Body w) (rest : List (Move w)), b.Inv → b.constructed = true →
    b.sched = .machine .reader :: rest → b.reader.st = .copy →
    ∃ b' : Body w, step ⟨w, b⟩ = .next ⟨w, b'⟩ ∧
      (let a := b.slotAddr (b.ridx + b.reader.k / b.esz) + b.reader.k % b.esz
       memRead b'.mem (b.reader.buf + b.reader.k).toNat = memRead b.mem a.toNat ∧
        ∀ x, x ≠ (b.reader.buf + b.reader.k).toNat → memRead b'.mem x = memRead b.mem x) ∧
      b'.reader = { b.reader with
        k := b.reader.k + 1
        st := if (b.reader.k + 1).toNat = b.reader.n.toNat * b.esz.toNat then .publish else .copy } ∧
      b'.writer = b.writer ∧ b'.ghost = b.ghost ∧ SameRegisters b b' ∧
      (∀ p, b'.port p = b.port p) ∧ b'.oracle = b.oracle ∧ b'.sched = rest

/-- R190, R195: a publish step advances its own index and logical index by the elements moved,
puts its machine to `IDLE` and responds on its own port; nothing else changes. The next step is
the first of the schedule (log entry 5). -/
def Obligations.PublishStepAdvancesItsOwnIndex : Prop :=
  ∀ (w : Width) (b : Body w) (rest : List (Move w)), b.Inv → b.constructed = true →
    (b.sched = .machine .writer :: rest → b.writer.st = .publish →
      ∃ b' : Body w, step ⟨w, b⟩ = .next ⟨w, b'⟩ ∧
        b'.widx.toNat = (b.widx.toNat + b.writer.n.toNat) % (2 * b.cap.toNat) ∧ b'.ridx = b.ridx ∧
        b'.ghost = { b.ghost with wlog := b.ghost.wlog + b.writer.n.toNat } ∧
        b'.writer = { b.writer with st := .idle } ∧ b'.reader = b.reader ∧
        Answered b'.portW 0x00 b.writer.n 0 0 0 0 ∧ OnlyAnswers .writer b b' ∧
        SameConfig b b' ∧ SameMemory b b' ∧ b'.oracle = b.oracle ∧ b'.sched = rest) ∧
    (b.sched = .machine .reader :: rest → b.reader.st = .publish →
      ∃ b' : Body w, step ⟨w, b⟩ = .next ⟨w, b'⟩ ∧
        b'.ridx.toNat = (b.ridx.toNat + b.reader.n.toNat) % (2 * b.cap.toNat) ∧ b'.widx = b.widx ∧
        b'.ghost = { b.ghost with rlog := b.ghost.rlog + b.reader.n.toNat } ∧
        b'.reader = { b.reader with st := .idle } ∧ b'.writer = b.writer ∧
        Answered b'.portR 0x00 b.reader.n 0 0 0 0 ∧ OnlyAnswers .reader b b' ∧
        SameConfig b b' ∧ SameMemory b b' ∧ b'.oracle = b.oracle ∧ b'.sched = rest)

/-- R190, R191, R200, R303: a WRITE that no other agent's step interrupts completes in exactly
`n*ESZ + 2` steps of its port, its machine busy after every fewer of them from the first on, with
the clamped count as its response; byte `j` of the client's data then stands at byte `j mod ESZ` of
logical element `WLOG + j/ESZ`, every other byte of memory is as before, the index is advanced and
no fault is recorded. The next step is the first of the schedule (log entry 5). -/
def Obligations.UninterruptedWriteCopiesItsData : Prop :=
  ∀ (w : Width) (b : Body w) (n : Nat), b.Sound → b.ghost.faults = .empty → b.constructed = true →
    b.portW.presented = true → b.portW.lines.word = encode .write → b.writer.st = .idle →
    b.portW.lines.opb.toNat % b.esz.toNat = 0 →
    b.portW.lines.opc.toNat ≤ b.portW.lines.opb.toNat / b.esz.toNat →
    n = min b.portW.lines.opc.toNat (b.cap.toNat - b.filled) →
    b.badBuffer b.portW.lines.opa (n * b.esz.toNat) = false →
    b.sched = .accept .writer :: List.replicate (n * b.esz.toNat + 1) (.machine .writer) →
    (∀ k, 1 ≤ k → k < n * b.esz.toNat + 2 → ∃ c : Body w,
      Sys2Proof.core.run k (State.mk w b) = .next (State.mk w c) ∧ c.writer.st ≠ .idle) ∧
    ∃ b' : Body w, Sys2Proof.core.run (n * b.esz.toNat + 2) (State.mk w b) = .next (State.mk w b') ∧
      Answered b'.portW 0x00 (BitVec.ofNat _ n) 0 0 0 0 ∧
      b'.ghost.wlog = b.ghost.wlog + n ∧
      b'.widx.toNat = (b.ghost.wlog + n) % (2 * b.cap.toNat) ∧
      b'.writer.st = .idle ∧ b'.ghost.faults = .empty ∧ b'.ghost.rlog = b.ghost.rlog ∧
      b'.ridx = b.ridx ∧ b'.reader = b.reader ∧ SameConfig b b' ∧ b'.sched = [] ∧
      (let addr := fun j : Nat => b.base.toNat +
          ((b.ghost.wlog + j / b.esz.toNat) % b.cap.toNat) * b.esz.toNat + j % b.esz.toNat
       (∀ j, j < n * b.esz.toNat →
          memRead b'.mem (addr j) = memRead b.mem (b.portW.lines.opa.toNat + j)) ∧
        ∀ a, (∀ j, j < n * b.esz.toNat → a ≠ addr j) → memRead b'.mem a = memRead b.mem a)

/-- R195, R191, R197, R200, R303: a READ that no other agent's step interrupts completes in exactly
`n*ESZ + 2` steps of its port, its machine busy after every fewer of them from the first on, and
delivers the oldest `n` elements, in order, to the `n*ESZ` bytes at its destination; every other
byte of memory is as before. The next step is the first of the schedule (log entry 5). -/
def Obligations.UninterruptedReadDeliversTheOldestElements : Prop :=
  ∀ (w : Width) (b : Body w) (n : Nat), b.Sound → b.ghost.faults = .empty → b.constructed = true →
    b.portR.presented = true → b.portR.lines.word = encode .read → b.reader.st = .idle →
    n = min b.portR.lines.opb.toNat b.filled →
    b.badBuffer b.portR.lines.opa (n * b.esz.toNat) = false →
    b.sched = .accept .reader :: List.replicate (n * b.esz.toNat + 1) (.machine .reader) →
    (∀ k, 1 ≤ k → k < n * b.esz.toNat + 2 → ∃ c : Body w,
      Sys2Proof.core.run k (State.mk w b) = .next (State.mk w c) ∧ c.reader.st ≠ .idle) ∧
    ∃ b' : Body w, Sys2Proof.core.run (n * b.esz.toNat + 2) (State.mk w b) = .next (State.mk w b') ∧
      Answered b'.portR 0x00 (BitVec.ofNat _ n) 0 0 0 0 ∧
      b'.ghost.rlog = b.ghost.rlog + n ∧
      b'.ridx.toNat = (b.ghost.rlog + n) % (2 * b.cap.toNat) ∧
      b'.reader.st = .idle ∧ b'.ghost.faults = .empty ∧ b'.ghost.wlog = b.ghost.wlog ∧
      b'.widx = b.widx ∧ b'.writer = b.writer ∧ SameConfig b b' ∧ b'.sched = [] ∧
      (List.range (n * b.esz.toNat)).map
          (fun j => memRead b'.mem (b.portR.lines.opa.toNat + j)) =
        b.contents.take (n * b.esz.toNat) ∧
      (∀ a, ¬ (b.portR.lines.opa.toNat ≤ a ∧ a < b.portR.lines.opa.toNat + n * b.esz.toNat) →
        memRead b'.mem a = memRead b.mem a)

/-! ### Zero-copy regions and index advance (43_zero_copy.md) -/

/-- The response of R221 for `n` elements from an index whose slot is `off`: one region up to the end
of the storage, the rest from `BASE` on. -/
def RegionsAnswered (b b' : Body w) (n : Word w) (off : Nat) : Prop :=
  let one := off + n.toNat ≤ b.cap.toNat
  let q := b'.port b.active
  q.status = 0x00 ∧ q.res0 = n ∧ q.res1 = b.base + BitVec.ofNat _ (off * b.esz.toNat) ∧
    q.res2.toNat = (if one then n.toNat else b.cap.toNat - off) ∧
    q.res3 = (if one then 0 else b.base) ∧
    q.res4.toNat = (if one then 0 else n.toNat - (b.cap.toNat - off)) ∧
    q.res2.toNat + q.res4.toNat = q.res0.toNat

/-- R220, R221, R222: GET_WRITE_REGIONS answers the clamped count and the regions of the free slots
from the write index on, grants the count and opens a zero-copy write; nothing else changes. -/
def Obligations.GetWriteRegionsReportsFreeSlots : Prop :=
  ∀ (w : Width) (b : Body w), b.Inv → b.active = .writer → b.constructed = true →
    ∃ (b' : Body w) (n : Word w), exec .getWriteRegions ⟨w, b⟩ = .next ⟨w, b'⟩ ∧
      n.toNat = min (min b.opa.toNat b.qWA.toNat) b.cap.toNat ∧
      RegionsAnswered b b' n (b.widx.toNat % b.cap.toNat) ∧
      b'.ghost = { b.ghost with wgrant := n.toNat, wzc := true } ∧ SameRegisters b b' ∧
      SameMachines b b' ∧ SameMemory b b' ∧ OnlyAnswers .writer b b' ∧ SameSurroundings b b'

/-- R228, R221, R231: GET_READ_REGIONS, the mirror on the read index. -/
def Obligations.GetReadRegionsReportsFilledSlots : Prop :=
  ∀ (w : Width) (b : Body w), b.Inv → b.active = .reader → b.constructed = true →
    ∃ (b' : Body w) (n : Word w), exec .getReadRegions ⟨w, b⟩ = .next ⟨w, b'⟩ ∧
      n.toNat = min (min b.opa.toNat b.qRA.toNat) b.cap.toNat ∧
      RegionsAnswered b b' n (b.ridx.toNat % b.cap.toNat) ∧
      b'.ghost = { b.ghost with rgrant := n.toNat, rzc := true } ∧ SameRegisters b b' ∧
      SameMachines b b' ∧ SameMemory b b' ∧ OnlyAnswers .reader b b' ∧ SameSurroundings b b'

/-- R224, R225, R226: ADVANCE_WRITE_INDEX publishes any count without a bounds check, answers the new
reduced index, takes the count off the grant (0 if negative), closes the zero-copy write, and records
`MF_OVERCOMMIT_WRITE` exactly where the count exceeds the grant or the free space. -/
def Obligations.AdvanceWriteIndexPublishesUnchecked : Prop :=
  ∀ (w : Width) (b : Body w), b.Inv → b.active = .writer → b.constructed = true →
    ∃ b' : Body w, exec .advanceWriteIndex ⟨w, b⟩ = .next ⟨w, b'⟩ ∧
      b'.widx.toNat = (b.widx.toNat + b.opa.toNat) % (2 * b.cap.toNat) ∧ b'.ridx = b.ridx ∧
      Answered (b'.port b.active) 0x00 b'.widx 0 0 0 0 ∧
      b'.ghost = { b.ghost with
        wlog := b.ghost.wlog + b.opa.toNat
        wgrant := if b.opa.toNat ≤ b.ghost.wgrant then b.ghost.wgrant - b.opa.toNat else 0
        wzc := false
        faults := if b.ghost.wgrant < b.opa.toNat ∨ b.qWA.toNat < b.opa.toNat then
          b.ghost.faults.add .overcommitWrite else b.ghost.faults } ∧
      SameConfig b b' ∧ SameMachines b b' ∧ SameMemory b b' ∧ OnlyAnswers .writer b b' ∧
      SameSurroundings b b'

/-- R232, R233: ADVANCE_READ_INDEX, the mirror on the read index. -/
def Obligations.AdvanceReadIndexPublishesUnchecked : Prop :=
  ∀ (w : Width) (b : Body w), b.Inv → b.active = .reader → b.constructed = true →
    ∃ b' : Body w, exec .advanceReadIndex ⟨w, b⟩ = .next ⟨w, b'⟩ ∧
      b'.ridx.toNat = (b.ridx.toNat + b.opa.toNat) % (2 * b.cap.toNat) ∧ b'.widx = b.widx ∧
      Answered (b'.port b.active) 0x00 b'.ridx 0 0 0 0 ∧
      b'.ghost = { b.ghost with
        rlog := b.ghost.rlog + b.opa.toNat
        rgrant := if b.opa.toNat ≤ b.ghost.rgrant then b.ghost.rgrant - b.opa.toNat else 0
        rzc := false
        faults := if b.ghost.rgrant < b.opa.toNat ∨ b.qRA.toNat < b.opa.toNat then
          b.ghost.faults.add .overcommitRead else b.ghost.faults } ∧
      SameConfig b b' ∧ SameMachines b b' ∧ SameMemory b b' ∧ OnlyAnswers .reader b b' ∧
      SameSurroundings b b'

/-! ### Control commands and the raw layout (44_control.md) -/

/-- R250, R251, R252: FLUSH zeroes both indices and the ghost items, touches no storage byte and no
configuration register, and records `MF_FLUSH_IN_FLIGHT` exactly where a machine is busy or a
zero-copy transfer is open. -/
def Obligations.FlushZeroesBothIndices : Prop :=
  ∀ (w : Width) (b : Body w), b.active = .control → b.constructed = true →
    ∃ b' : Body w, exec .flush ⟨w, b⟩ = .next ⟨w, b'⟩ ∧ b'.widx = 0 ∧ b'.ridx = 0 ∧
      Answered b'.portC 0x00 0 0 0 0 0 ∧
      b'.ghost = ⟨0, 0, 0, 0, false, false,
        if b.writer.st ≠ .idle ∨ b.reader.st ≠ .idle ∨ b.ghost.wzc = true ∨ b.ghost.rzc = true then
          b.ghost.faults.add .flushInFlight else b.ghost.faults⟩ ∧
      SameConfig b b' ∧ SameMachines b b' ∧ SameMemory b b' ∧ OnlyAnswers .control b b' ∧
      SameSurroundings b b'

/-- R253: FLUSH is idempotent: a second FLUSH right after the first changes nothing. -/
def Obligations.FlushTwiceIsFlushOnce : Prop :=
  ∀ (w : Width) (b b' : Body w), exec .flush ⟨w, b⟩ = .next ⟨w, b'⟩ →
    exec .flush ⟨w, b'⟩ = .next ⟨w, b'⟩

/-- R254, R255: DESTROY clears every register, gives owned storage back to the oracle and leaves
borrowed storage alone, touches no byte, and records `MF_DESTROY_IN_FLIGHT` exactly where a
machine is busy or a zero-copy transfer is open. The regions the oracle has out are a list (log
entry 4). -/
def Obligations.DestroyReleasesOwnedStorageOnly : Prop :=
  ∀ (w : Width) (b : Body w), b.active = .control → b.constructed = true →
    ∃ b' : Body w, exec .destroy ⟨w, b⟩ = .next ⟨w, b'⟩ ∧ b'.constructed = false ∧
      b'.cap = 0 ∧ b'.widx = 0 ∧ b'.ridx = 0 ∧ b'.bmask = 0 ∧ b'.smask = 0 ∧ b'.esz = 0 ∧
      b'.base = 0 ∧ b'.owned = false ∧ Answered b'.portC 0x00 0 0 0 0 0 ∧
      b'.ghost = ⟨0, 0, 0, 0, false, false,
        if b.writer.st ≠ .idle ∨ b.reader.st ≠ .idle ∨ b.ghost.wzc = true ∨ b.ghost.rzc = true then
          b.ghost.faults.add .destroyInFlight else b.ghost.faults⟩ ∧
      b'.oracle.live = (if b.owned then
        b.oracle.live.erase (b.base.toNat, b.cap.toNat * b.esz.toNat) else b.oracle.live) ∧
      b'.oracle.answers = b.oracle.answers ∧ SameMachines b b' ∧ SameMemory b b' ∧
      OnlyAnswers .control b b' ∧ b'.active = b.active ∧ b'.sched = b.sched

/-- R257, R258: READ_REG answers word `k` of the raw layout for `k` from 0 to 6 and `InvalidRegister`
from 7 on; nothing else changes. -/
def Obligations.ReadRegAnswersTheRawLayout : Prop :=
  ∀ (w : Width) (b : Body w), b.active = .control → b.constructed = true →
    ∃ b' : Body w, exec .readReg ⟨w, b⟩ = .next ⟨w, b'⟩ ∧ OnlyResponds b b' ∧
      (let k := b.opa.toNat
       if 7 ≤ k then Answered b'.portC 0x16 0 0 0 0 0
       else Answered b'.portC 0x00
        (if k = 0 then b.cap else if k = 1 then b.widx else if k = 2 then b.ridx
         else if k = 3 then b.bmask else if k = 4 then b.smask else if k = 5 then b.esz
         else b.base) 0 0 0 0)

/-- R258, R11: the exported layout is `7*W/8` bytes; byte `i` of word `k` stands at byte offset
`k*W/8 + i`, the words' bytes least significant first or most significant first. The byte order is
an argument (log entry 17). -/
def Obligations.RawLayoutExportsSevenWords : Prop :=
  ∀ (w : Width) (b : Body w) (o : ByteOrder), (b.rawLayout o).length = 7 * (w.bits / 8) ∧
    ∀ k i v, b.layoutWord k = some v → i < w.bits / 8 →
      (b.rawLayout o)[k * (w.bits / 8) + i]? =
        some (v.extractLsb' (8 * (match o with | .little => i | .big => w.bits / 8 - 1 - i)) 8)

/-! ### Clients (10_state.md R48, 60_exceptions.md R291) -/

/-- R48: a slot is granted exactly where one of the granted logical elements stands in it. -/
def Obligations.GrantedSlotsAreThoseOfTheGrantedElements : Prop :=
  ∀ cap start count slot : Nat, slot < cap →
    (slotGranted cap start count slot = true ↔ ∃ d, d < count ∧ (start + d) % cap = slot)

/-- R48: the right of the client of `p` to load or store a storage byte, in the rule's own words. -/
def HasStorageRight (b : Body w) (p : PortId) (store : Bool) (a : Word w) : Prop :=
  let slot := (a - b.base).toNat / b.esz.toNat
  match p with
  | .writer => ∃ d, d < b.ghost.wgrant ∧ (b.ghost.wlog + d) % b.cap.toNat = slot
  | .reader => store = false ∧ ∃ d, d < b.ghost.rgrant ∧ (b.ghost.rlog + d) % b.cap.toNat = slot
  | .control => False

/-- R221, R223, R229: the regions either GET command reports are exactly the storage bytes of the slots
it grants its client. A storage that wraps (after `MF_REGION_WRAP`) is included: that its bytes and
those of a region are then taken modulo `2^W` is DEDUCED (log entry 11). -/
def Obligations.ReportedRegionsAreTheGrantedBytes : Prop :=
  ∀ (w : Width) (b : Body w) (i : Instr), b.Inv → b.constructed = true →
    (i = .getWriteRegions ∧ b.active = .writer) ∨ (i = .getReadRegions ∧ b.active = .reader) →
    ∃ b' : Body w, exec i ⟨w, b⟩ = .next ⟨w, b'⟩ ∧
      ∀ a : Word w, (a - b.base).toNat < b.cap.toNat * b.esz.toNat →
        (HasStorageRight b' b.active false a ↔
          (let q := b'.port b.active
           (a - q.res1).toNat < q.res2.toNat * b.esz.toNat ∨
            (a - q.res3).toNat < q.res4.toNat * b.esz.toNat))

/-- R291: `MF_STORAGE_ACCESS` is recorded exactly where the byte lies in the storage of a constructed
block and the client has no right to the access. The bytes of a storage that wraps are taken modulo
`2^W`: DEDUCED, log entry 11. -/
def AccessRecorded (b b' : Body w) (p : PortId) (store : Bool) (a : Word w) : Prop :=
  let outside := b.constructed = true ∧ (a - b.base).toNat < b.cap.toNat * b.esz.toNat ∧
    ¬ HasStorageRight b p store a
  (outside → b'.ghost = { b.ghost with faults := b.ghost.faults.add .storageAccess }) ∧
    (¬ outside → b'.ghost = b.ghost)

/-- R291, R48: a client's load returns the byte's current value and its store writes its byte, in
any case; a storage byte outside the client's rights records `MF_STORAGE_ACCESS`; nothing else
changes. The next step is the first of the schedule (log entry 5). The field that holds the loaded
byte is a DESIGN CHOICE (log entry 8); membership in a storage that wraps, modulo `2^W`, is DEDUCED
(log entry 11). -/
def Obligations.ClientAccessesHappenAndAreChecked : Prop :=
  ∀ (w : Width) (b : Body w) (p : PortId) (a : Word w) (v : Byte) (rest : List (Move w)), b.Inv →
    (b.sched = .load p a :: rest →
      ∃ b' : Body w, step ⟨w, b⟩ = .next ⟨w, b'⟩ ∧
        b'.port p = { b.port p with loaded := memRead b.mem a.toNat } ∧
        AccessRecorded b b' p false a ∧ SameMemory b b' ∧ SameRegisters b b' ∧ SameMachines b b' ∧
        (∀ q, q ≠ p → b'.port q = b.port q) ∧ b'.oracle = b.oracle ∧ b'.active = b.active ∧
        b'.sched = rest) ∧
    (b.sched = .store p a v :: rest →
      ∃ b' : Body w, step ⟨w, b⟩ = .next ⟨w, b'⟩ ∧ memRead b'.mem a.toNat = v ∧
        (∀ x, x ≠ a.toNat → memRead b'.mem x = memRead b.mem x) ∧ AccessRecorded b b' p true a ∧
        SameRegisters b b' ∧ SameMachines b b' ∧ (∀ q, b'.port q = b.port q) ∧
        b'.oracle = b.oracle ∧ b'.active = b.active ∧ b'.sched = rest)

/-! ### Reset, invariants and whole-machine rules -/

/-- R320, R321, R256: reset leaves every register, latch, response and ghost item 0, `IDLE`, false or
empty, nothing presented, and the memory as it was; every command but the constructions then answers
`NotConstructed` on a port that may issue it. That no region is out of the oracle is about the
model's list of regions (log entry 4, DESIGN CHOICE). -/
def Obligations.ResetLeavesTheBlockUnconstructed : Prop :=
  ∀ (w : Width) (mem : List Host.Cell) (answers : List (AllocAnswer w)) (sched : List (Move w)),
    let b := Body.resetOf w mem answers sched
    b.constructed = false ∧ b.owned = false ∧ b.cap = 0 ∧ b.widx = 0 ∧ b.ridx = 0 ∧ b.bmask = 0 ∧
      b.smask = 0 ∧ b.esz = 0 ∧ b.base = 0 ∧ b.writer = ⟨.idle, 0, 0, 0⟩ ∧
      b.reader = ⟨.idle, 0, 0, 0⟩ ∧
      (∀ p, (b.port p).presented = false ∧ Answered (b.port p) 0 0 0 0 0 0) ∧
      b.ghost = ⟨0, 0, 0, 0, false, false, .empty⟩ ∧ b.mem = mem ∧ b.oracle.live = [] ∧
      (∀ (i : Instr) (p : PortId), i ≠ .new → i ≠ .newWithStorage → p ∈ i.ports →
        ∃ b' : Body w, exec i ⟨w, { b with active := p }⟩ = .next ⟨w, b'⟩ ∧
          Answered (b'.port p) 0x12 0 0 0 0 0)

/-- The invariants hold right after reset, for every canonical initial memory. The oracle's regions
are a list (log entry 4). -/
def Obligations.ResetMeetsTheInvariant : Prop :=
  State.reset.body.Sound ∧
    ∀ (w : Width) (mem : List Host.Cell) (answers : List (AllocAnswer w)) (sched : List (Move w)),
      memWf w mem = true → (Body.resetOf w mem answers sched).Sound

/-- R31 to R38, R46, R50, R166, R10: every step keeps the invariant of every state, faulted or
not. The next step is the first of the schedule (log entry 5); the oracle's regions are a list (log
entry 4). -/
def Obligations.StepKeepsTheInvariant : Prop :=
  ∀ (w : Width) (b b' : Body w), b.Inv → step ⟨w, b⟩ = .next ⟨w, b'⟩ → b'.Inv

/-- R47: every step keeps the contract invariant: where no fault is recorded, the filled count
stays within the capacity and the grants within the free and the filled space. The next step is
the first of the schedule (log entry 5). -/
def Obligations.StepKeepsTheContractInvariant : Prop :=
  ∀ (w : Width) (b b' : Body w), b.Sound → step ⟨w, b⟩ = .next ⟨w, b'⟩ → b'.Sound

/-- R49, R288: no step takes a name out of the fault set. The next step is the first of the
schedule (log entry 5). -/
def Obligations.FaultsAreSticky : Prop :=
  ∀ (w : Width) (b b' : Body w) (x : MFault), step ⟨w, b⟩ = .next ⟨w, b'⟩ →
    b.ghost.faults.has x = true → b'.ghost.faults.has x = true

/-- R33 to R38: no step changes a configuration register of a block that stays constructed. The
next step is the first of the schedule (log entry 5). -/
def Obligations.ConfigurationIsConstantWhileConstructed : Prop :=
  ∀ (w : Width) (b b' : Body w), step ⟨w, b⟩ = .next ⟨w, b'⟩ → b.constructed = true →
    b'.constructed = true → SameConfig b b'

/-- R31, R259: only the writer machine's publish step, ADVANCE_WRITE_INDEX accepted on port W, and
NEW, NEW_WITH_STORAGE, FLUSH and DESTROY accepted on port C change `WIDX`; R32: likewise `RIDX`.
The next step is the first of the schedule (log entry 5). -/
def Obligations.OnlyTheirWritersMoveTheIndices : Prop :=
  ∀ (w : Width) (b b' : Body w), step ⟨w, b⟩ = .next ⟨w, b'⟩ →
    let control := b.sched.head? = some (.accept .control) ∧
      b.portC.lines.word ∈ [encode .new, encode .newWithStorage, encode .flush, encode .destroy]
    (b'.widx ≠ b.widx →
      (b.sched.head? = some (.machine .writer) ∧ b.writer.st = .publish) ∨
        (b.sched.head? = some (.accept .writer) ∧
          b.portW.lines.word = encode .advanceWriteIndex) ∨ control) ∧
    (b'.ridx ≠ b.ridx →
      (b.sched.head? = some (.machine .reader) ∧ b.reader.st = .publish) ∨
        (b.sched.head? = some (.accept .reader) ∧
          b.portR.lines.word = encode .advanceReadIndex) ∨ control)

/-- R176: in a run without faults the free count the writer was told can only grow until a step of
the writer's own side, and the filled count the reader was told until one of the reader's own side
or a command on port C (a FLUSH empties the buffer, R252). The next step is the first of the
schedule (log entry 5). -/
def Obligations.AvailabilityShrinksOnlyByItsOwnSide : Prop :=
  ∀ (w : Width) (b b' : Body w), b.Sound → step ⟨w, b⟩ = .next ⟨w, b'⟩ →
    b'.ghost.faults = .empty → b.constructed = true → b'.constructed = true →
    (b.sched.head? ≠ some (.machine .writer) → b.sched.head? ≠ some (.accept .writer) →
      b.qWA.toNat ≤ b'.qWA.toNat) ∧
    (b.sched.head? ≠ some (.machine .reader) → b.sched.head? ≠ some (.accept .reader) →
      b.sched.head? ≠ some (.accept .control) → b.qRA.toNat ≤ b'.qRA.toNat)

/-- R79, R252, R137: a byte of memory changes only in a copy step, at that step's address, in a
client's store, at its address, or where NEW is granted storage the byte lies in. The next step is
the first of the schedule (log entry 5). -/
def Obligations.MemoryChangesOnlyInCopiesStoresAndGrants : Prop :=
  ∀ (w : Width) (b b' : Body w) (a : Nat), step ⟨w, b⟩ = .next ⟨w, b'⟩ →
    memRead b'.mem a ≠ memRead b.mem a →
    (b.sched.head? = some (.machine .writer) ∧ b.writer.st = .copy ∧
        a = (b.transferAddr b.widx b.writer.k).toNat) ∨
      (b.sched.head? = some (.machine .reader) ∧ b.reader.st = .copy ∧
        a = (b.reader.buf + b.reader.k).toNat) ∨
      (∃ p x v, b.sched.head? = some (.store p x v) ∧ a = x.toNat) ∨
      (b.sched.head? = some (.accept .control) ∧ b.portC.lines.word = encode .new ∧
        b.constructed = false ∧ b'.constructed = true ∧ ∃ x : Word w, a = x.toNat ∧
          (x - b'.base).toNat < b'.cap.toNat * b'.esz.toNat)

/-- R14, R288: ghost state is never an input to hardware: two machines that differ only in it step
to machines that differ only in it. The next step is the first of the schedule (log entry 5). -/
def Obligations.GhostStateNeverReachesTheHardware : Prop :=
  ∀ (w : Width) (b c b' c' : Body w), b.hardware = c.hardware → step ⟨w, b⟩ = .next ⟨w, b'⟩ →
    step ⟨w, c⟩ = .next ⟨w, c'⟩ → b'.hardware = c'.hardware

/-- R91: in an unfaulted state a copy step of the writer machine leaves every byte of every
element the reader can still read as it was. The next step is the first of the schedule (log entry
5). -/
def Obligations.WriterCopiesLeaveReadableElements : Prop :=
  ∀ (w : Width) (b b' : Body w) (rest : List (Move w)), b.Sound → b.ghost.faults = .empty →
    b.sched = .machine .writer :: rest → b.writer.st = .copy → step ⟨w, b⟩ = .next ⟨w, b'⟩ →
    ∀ i k, b.ghost.rlog ≤ i → i < b.ghost.wlog → k < b.esz.toNat →
      b'.elementByte i k = b.elementByte i k

/-- R201, R47, R91: the block is a queue. In a run without faults each step of any agent leaves
the bytes of the readable elements as they are; or, a step of the writer's side, appends behind
them; or, a step of the reader's side, takes away from their front; or, a command on port C,
empties them. The next step is the first of the schedule (log entry 5). -/
def Obligations.EveryStepIsAStepOfAQueue : Prop :=
  ∀ (w : Width) (b b' : Body w), b.Sound → step ⟨w, b⟩ = .next ⟨w, b'⟩ →
    b'.ghost.faults = .empty →
    b'.contents = b.contents ∨
      (∃ l, b'.contents = b.contents ++ l ∧ (b.sched.head? = some (.machine .writer) ∨
        b.sched.head? = some (.accept .writer))) ∨
      (∃ l, b.contents = l ++ b'.contents ∧ (b.sched.head? = some (.machine .reader) ∨
        b.sched.head? = some (.accept .reader))) ∨
      (b'.contents = [] ∧ b.sched.head? = some (.accept .control))
end

