-- ==== Sys2Proof/Laws/Arithmetic.lean ====
section
/-! SUPPORT. The word arithmetic behind masks, the power-of-two test, division and the clamp, as
statements about natural numbers. -/

namespace Sys2Proof.Machine

variable {w : Width}

/-- The word 1, as a natural number. -/
theorem toNat_one_word : (1 : Word w).toNat = 1 := by cases w <;> rfl

/-- A word is 0 exactly where its value is. -/
theorem word_eq_zero_iff {x : Word w} : x = 0 ↔ x.toNat = 0 := by
  rw [← BitVec.toNat_inj]; simp

/-- A mask of `k` low one-bits takes the value modulo `2^k`. -/
theorem toNat_and_mask (x m : Word w) (k : Nat) (hm : m.toNat = 2 ^ k - 1) :
    (x &&& m).toNat = x.toNat % 2 ^ k := by
  rw [BitVec.toNat_and, hm, Nat.and_two_pow_sub_one_eq_mod]

/-- A positive number with no bit in common with its predecessor is a power of two (93, G1). -/
theorem exists_two_pow_of_and_pred (n : Nat) (h0 : 0 < n) (h : n &&& (n - 1) = 0) :
    ∃ k, n = 2 ^ k := by
  induction n using Nat.strong_induction_on with
  | _ n ih =>
    have key : ∀ m, n / 2 = m → (n - 1) / 2 &&& m = 0 := by
      rintro m rfl
      refine Nat.eq_of_testBit_eq fun i => ?_
      have hi : (n &&& (n - 1)).testBit (i + 1) = false := by rw [h, Nat.zero_testBit]
      rw [Nat.testBit_and, Nat.testBit_succ, Nat.testBit_succ] at hi
      rw [Nat.testBit_and, Nat.zero_testBit, Bool.and_comm]
      exact hi
    rcases Nat.even_or_odd' n with ⟨m, hm | hm⟩
    · have hk := key m (by omega)
      rw [show (n - 1) / 2 = m - 1 by omega, Nat.and_comm] at hk
      obtain ⟨k, hk⟩ := ih m (by omega) (by omega) hk
      exact ⟨k + 1, by rw [hm, hk, Nat.pow_succ, Nat.mul_comm]⟩
    · have hk := key m (by omega)
      rw [show (n - 1) / 2 = m by omega, Nat.and_self] at hk
      exact ⟨0, by omega⟩

/-- Division by a nonzero word is division of the values (R13). -/
theorem quotient_toNat {a b : Word w} (h : b ≠ 0) : (quotient a b).toNat = a.toNat / b.toNat := by
  rw [quotient, if_neg h, BitVec.toNat_udiv]

/-- The remainder by a nonzero word is the remainder of the values (R13). -/
theorem remainder_toNat {a b : Word w} (h : b ≠ 0) :
    (remainder a b).toNat = a.toNat % b.toNat := by
  rw [remainder, if_neg h, BitVec.toNat_umod]

/-- The smaller word is the smaller value. -/
theorem wordMin_toNat (a b : Word w) : (wordMin a b).toNat = min a.toNat b.toNat := by
  unfold wordMin
  split_ifs with h <;> rw [BitVec.le_def] at h <;> omega

/-- The clamp is the smallest of the three values (R178). -/
theorem clamp_toNat (b : Body w) (count avail : Word w) :
    (b.clamp count avail).toNat = min (min count.toNat avail.toNat) b.cap.toNat := by
  simp [Body.clamp, wordMin_toNat]

end Sys2Proof.Machine
end

