-- ==== Sys2Proof/Laws/State.lean ====
section
/-! SUPPORT. One lemma per field per update of the state, and the ports' own laws. -/

namespace Sys2Proof.Machine

variable {w : Width} (b : Body w)

/-! ### `Body.setPort` -/

@[simp] theorem Body.setPort_cap (p : PortId) (q : Port w) :
    (b.setPort p q).cap = b.cap := by cases p <;> rfl
@[simp] theorem Body.setPort_widx (p : PortId) (q : Port w) :
    (b.setPort p q).widx = b.widx := by cases p <;> rfl
@[simp] theorem Body.setPort_ridx (p : PortId) (q : Port w) :
    (b.setPort p q).ridx = b.ridx := by cases p <;> rfl
@[simp] theorem Body.setPort_bmask (p : PortId) (q : Port w) :
    (b.setPort p q).bmask = b.bmask := by cases p <;> rfl
@[simp] theorem Body.setPort_smask (p : PortId) (q : Port w) :
    (b.setPort p q).smask = b.smask := by cases p <;> rfl
@[simp] theorem Body.setPort_esz (p : PortId) (q : Port w) :
    (b.setPort p q).esz = b.esz := by cases p <;> rfl
@[simp] theorem Body.setPort_base (p : PortId) (q : Port w) :
    (b.setPort p q).base = b.base := by cases p <;> rfl
@[simp] theorem Body.setPort_owned (p : PortId) (q : Port w) :
    (b.setPort p q).owned = b.owned := by cases p <;> rfl
@[simp] theorem Body.setPort_constructed (p : PortId) (q : Port w) :
    (b.setPort p q).constructed = b.constructed := by cases p <;> rfl
@[simp] theorem Body.setPort_writer (p : PortId) (q : Port w) :
    (b.setPort p q).writer = b.writer := by cases p <;> rfl
@[simp] theorem Body.setPort_reader (p : PortId) (q : Port w) :
    (b.setPort p q).reader = b.reader := by cases p <;> rfl
@[simp] theorem Body.setPort_mem (p : PortId) (q : Port w) :
    (b.setPort p q).mem = b.mem := by cases p <;> rfl
@[simp] theorem Body.setPort_ghost (p : PortId) (q : Port w) :
    (b.setPort p q).ghost = b.ghost := by cases p <;> rfl
@[simp] theorem Body.setPort_oracle (p : PortId) (q : Port w) :
    (b.setPort p q).oracle = b.oracle := by cases p <;> rfl
@[simp] theorem Body.setPort_active (p : PortId) (q : Port w) :
    (b.setPort p q).active = b.active := by cases p <;> rfl
@[simp] theorem Body.setPort_sched (p : PortId) (q : Port w) :
    (b.setPort p q).sched = b.sched := by cases p <;> rfl

/-! ### `Body.respondOn` -/

@[simp] theorem Body.respondOn_cap (p : PortId) (st : Status) (r0 r1 r2 r3 r4 : Word w) :
    (b.respondOn p st r0 r1 r2 r3 r4).cap = b.cap := by cases p <;> rfl
@[simp] theorem Body.respondOn_widx (p : PortId) (st : Status) (r0 r1 r2 r3 r4 : Word w) :
    (b.respondOn p st r0 r1 r2 r3 r4).widx = b.widx := by cases p <;> rfl
@[simp] theorem Body.respondOn_ridx (p : PortId) (st : Status) (r0 r1 r2 r3 r4 : Word w) :
    (b.respondOn p st r0 r1 r2 r3 r4).ridx = b.ridx := by cases p <;> rfl
@[simp] theorem Body.respondOn_bmask (p : PortId) (st : Status) (r0 r1 r2 r3 r4 : Word w) :
    (b.respondOn p st r0 r1 r2 r3 r4).bmask = b.bmask := by cases p <;> rfl
@[simp] theorem Body.respondOn_smask (p : PortId) (st : Status) (r0 r1 r2 r3 r4 : Word w) :
    (b.respondOn p st r0 r1 r2 r3 r4).smask = b.smask := by cases p <;> rfl
@[simp] theorem Body.respondOn_esz (p : PortId) (st : Status) (r0 r1 r2 r3 r4 : Word w) :
    (b.respondOn p st r0 r1 r2 r3 r4).esz = b.esz := by cases p <;> rfl
@[simp] theorem Body.respondOn_base (p : PortId) (st : Status) (r0 r1 r2 r3 r4 : Word w) :
    (b.respondOn p st r0 r1 r2 r3 r4).base = b.base := by cases p <;> rfl
@[simp] theorem Body.respondOn_owned (p : PortId) (st : Status) (r0 r1 r2 r3 r4 : Word w) :
    (b.respondOn p st r0 r1 r2 r3 r4).owned = b.owned := by cases p <;> rfl
@[simp] theorem Body.respondOn_constructed (p : PortId) (st : Status) (r0 r1 r2 r3 r4 : Word w) :
    (b.respondOn p st r0 r1 r2 r3 r4).constructed = b.constructed := by cases p <;> rfl
@[simp] theorem Body.respondOn_writer (p : PortId) (st : Status) (r0 r1 r2 r3 r4 : Word w) :
    (b.respondOn p st r0 r1 r2 r3 r4).writer = b.writer := by cases p <;> rfl
@[simp] theorem Body.respondOn_reader (p : PortId) (st : Status) (r0 r1 r2 r3 r4 : Word w) :
    (b.respondOn p st r0 r1 r2 r3 r4).reader = b.reader := by cases p <;> rfl
@[simp] theorem Body.respondOn_mem (p : PortId) (st : Status) (r0 r1 r2 r3 r4 : Word w) :
    (b.respondOn p st r0 r1 r2 r3 r4).mem = b.mem := by cases p <;> rfl
@[simp] theorem Body.respondOn_ghost (p : PortId) (st : Status) (r0 r1 r2 r3 r4 : Word w) :
    (b.respondOn p st r0 r1 r2 r3 r4).ghost = b.ghost := by cases p <;> rfl
@[simp] theorem Body.respondOn_oracle (p : PortId) (st : Status) (r0 r1 r2 r3 r4 : Word w) :
    (b.respondOn p st r0 r1 r2 r3 r4).oracle = b.oracle := by cases p <;> rfl
@[simp] theorem Body.respondOn_active (p : PortId) (st : Status) (r0 r1 r2 r3 r4 : Word w) :
    (b.respondOn p st r0 r1 r2 r3 r4).active = b.active := by cases p <;> rfl
@[simp] theorem Body.respondOn_sched (p : PortId) (st : Status) (r0 r1 r2 r3 r4 : Word w) :
    (b.respondOn p st r0 r1 r2 r3 r4).sched = b.sched := by cases p <;> rfl

/-! ### `Body.ok` -/

@[simp] theorem Body.ok_cap (r0 : Word w) :
    (b.ok r0).cap = b.cap := Body.respondOn_cap ..
@[simp] theorem Body.ok_widx (r0 : Word w) :
    (b.ok r0).widx = b.widx := Body.respondOn_widx ..
@[simp] theorem Body.ok_ridx (r0 : Word w) :
    (b.ok r0).ridx = b.ridx := Body.respondOn_ridx ..
@[simp] theorem Body.ok_bmask (r0 : Word w) :
    (b.ok r0).bmask = b.bmask := Body.respondOn_bmask ..
@[simp] theorem Body.ok_smask (r0 : Word w) :
    (b.ok r0).smask = b.smask := Body.respondOn_smask ..
@[simp] theorem Body.ok_esz (r0 : Word w) :
    (b.ok r0).esz = b.esz := Body.respondOn_esz ..
@[simp] theorem Body.ok_base (r0 : Word w) :
    (b.ok r0).base = b.base := Body.respondOn_base ..
@[simp] theorem Body.ok_owned (r0 : Word w) :
    (b.ok r0).owned = b.owned := Body.respondOn_owned ..
@[simp] theorem Body.ok_constructed (r0 : Word w) :
    (b.ok r0).constructed = b.constructed := Body.respondOn_constructed ..
@[simp] theorem Body.ok_writer (r0 : Word w) :
    (b.ok r0).writer = b.writer := Body.respondOn_writer ..
@[simp] theorem Body.ok_reader (r0 : Word w) :
    (b.ok r0).reader = b.reader := Body.respondOn_reader ..
@[simp] theorem Body.ok_mem (r0 : Word w) :
    (b.ok r0).mem = b.mem := Body.respondOn_mem ..
@[simp] theorem Body.ok_ghost (r0 : Word w) :
    (b.ok r0).ghost = b.ghost := Body.respondOn_ghost ..
@[simp] theorem Body.ok_oracle (r0 : Word w) :
    (b.ok r0).oracle = b.oracle := Body.respondOn_oracle ..
@[simp] theorem Body.ok_active (r0 : Word w) :
    (b.ok r0).active = b.active := Body.respondOn_active ..
@[simp] theorem Body.ok_sched (r0 : Word w) :
    (b.ok r0).sched = b.sched := Body.respondOn_sched ..

/-! ### `Body.raise` -/

@[simp] theorem Body.raise_cap (st : Status) :
    (b.raise st).cap = b.cap := Body.respondOn_cap ..
@[simp] theorem Body.raise_widx (st : Status) :
    (b.raise st).widx = b.widx := Body.respondOn_widx ..
@[simp] theorem Body.raise_ridx (st : Status) :
    (b.raise st).ridx = b.ridx := Body.respondOn_ridx ..
@[simp] theorem Body.raise_bmask (st : Status) :
    (b.raise st).bmask = b.bmask := Body.respondOn_bmask ..
@[simp] theorem Body.raise_smask (st : Status) :
    (b.raise st).smask = b.smask := Body.respondOn_smask ..
@[simp] theorem Body.raise_esz (st : Status) :
    (b.raise st).esz = b.esz := Body.respondOn_esz ..
@[simp] theorem Body.raise_base (st : Status) :
    (b.raise st).base = b.base := Body.respondOn_base ..
@[simp] theorem Body.raise_owned (st : Status) :
    (b.raise st).owned = b.owned := Body.respondOn_owned ..
@[simp] theorem Body.raise_constructed (st : Status) :
    (b.raise st).constructed = b.constructed := Body.respondOn_constructed ..
@[simp] theorem Body.raise_writer (st : Status) :
    (b.raise st).writer = b.writer := Body.respondOn_writer ..
@[simp] theorem Body.raise_reader (st : Status) :
    (b.raise st).reader = b.reader := Body.respondOn_reader ..
@[simp] theorem Body.raise_mem (st : Status) :
    (b.raise st).mem = b.mem := Body.respondOn_mem ..
@[simp] theorem Body.raise_ghost (st : Status) :
    (b.raise st).ghost = b.ghost := Body.respondOn_ghost ..
@[simp] theorem Body.raise_oracle (st : Status) :
    (b.raise st).oracle = b.oracle := Body.respondOn_oracle ..
@[simp] theorem Body.raise_active (st : Status) :
    (b.raise st).active = b.active := Body.respondOn_active ..
@[simp] theorem Body.raise_sched (st : Status) :
    (b.raise st).sched = b.sched := Body.respondOn_sched ..

/-! ### `Body.recordIf` -/

@[simp] theorem Body.recordIf_cap (c : Bool) (x : MFault) :
    (b.recordIf c x).cap = b.cap := rfl
@[simp] theorem Body.recordIf_widx (c : Bool) (x : MFault) :
    (b.recordIf c x).widx = b.widx := rfl
@[simp] theorem Body.recordIf_ridx (c : Bool) (x : MFault) :
    (b.recordIf c x).ridx = b.ridx := rfl
@[simp] theorem Body.recordIf_bmask (c : Bool) (x : MFault) :
    (b.recordIf c x).bmask = b.bmask := rfl
@[simp] theorem Body.recordIf_smask (c : Bool) (x : MFault) :
    (b.recordIf c x).smask = b.smask := rfl
@[simp] theorem Body.recordIf_esz (c : Bool) (x : MFault) :
    (b.recordIf c x).esz = b.esz := rfl
@[simp] theorem Body.recordIf_base (c : Bool) (x : MFault) :
    (b.recordIf c x).base = b.base := rfl
@[simp] theorem Body.recordIf_owned (c : Bool) (x : MFault) :
    (b.recordIf c x).owned = b.owned := rfl
@[simp] theorem Body.recordIf_constructed (c : Bool) (x : MFault) :
    (b.recordIf c x).constructed = b.constructed := rfl
@[simp] theorem Body.recordIf_writer (c : Bool) (x : MFault) :
    (b.recordIf c x).writer = b.writer := rfl
@[simp] theorem Body.recordIf_reader (c : Bool) (x : MFault) :
    (b.recordIf c x).reader = b.reader := rfl
@[simp] theorem Body.recordIf_portW (c : Bool) (x : MFault) :
    (b.recordIf c x).portW = b.portW := rfl
@[simp] theorem Body.recordIf_portR (c : Bool) (x : MFault) :
    (b.recordIf c x).portR = b.portR := rfl
@[simp] theorem Body.recordIf_portC (c : Bool) (x : MFault) :
    (b.recordIf c x).portC = b.portC := rfl
@[simp] theorem Body.recordIf_mem (c : Bool) (x : MFault) :
    (b.recordIf c x).mem = b.mem := rfl
@[simp] theorem Body.recordIf_oracle (c : Bool) (x : MFault) :
    (b.recordIf c x).oracle = b.oracle := rfl
@[simp] theorem Body.recordIf_active (c : Bool) (x : MFault) :
    (b.recordIf c x).active = b.active := rfl
@[simp] theorem Body.recordIf_sched (c : Bool) (x : MFault) :
    (b.recordIf c x).sched = b.sched := rfl

/-! ### `Body.setWriteGrant` -/

@[simp] theorem Body.setWriteGrant_cap (n : Nat) (z : Bool) :
    (b.setWriteGrant n z).cap = b.cap := rfl
@[simp] theorem Body.setWriteGrant_widx (n : Nat) (z : Bool) :
    (b.setWriteGrant n z).widx = b.widx := rfl
@[simp] theorem Body.setWriteGrant_ridx (n : Nat) (z : Bool) :
    (b.setWriteGrant n z).ridx = b.ridx := rfl
@[simp] theorem Body.setWriteGrant_bmask (n : Nat) (z : Bool) :
    (b.setWriteGrant n z).bmask = b.bmask := rfl
@[simp] theorem Body.setWriteGrant_smask (n : Nat) (z : Bool) :
    (b.setWriteGrant n z).smask = b.smask := rfl
@[simp] theorem Body.setWriteGrant_esz (n : Nat) (z : Bool) :
    (b.setWriteGrant n z).esz = b.esz := rfl
@[simp] theorem Body.setWriteGrant_base (n : Nat) (z : Bool) :
    (b.setWriteGrant n z).base = b.base := rfl
@[simp] theorem Body.setWriteGrant_owned (n : Nat) (z : Bool) :
    (b.setWriteGrant n z).owned = b.owned := rfl
@[simp] theorem Body.setWriteGrant_constructed (n : Nat) (z : Bool) :
    (b.setWriteGrant n z).constructed = b.constructed := rfl
@[simp] theorem Body.setWriteGrant_writer (n : Nat) (z : Bool) :
    (b.setWriteGrant n z).writer = b.writer := rfl
@[simp] theorem Body.setWriteGrant_reader (n : Nat) (z : Bool) :
    (b.setWriteGrant n z).reader = b.reader := rfl
@[simp] theorem Body.setWriteGrant_portW (n : Nat) (z : Bool) :
    (b.setWriteGrant n z).portW = b.portW := rfl
@[simp] theorem Body.setWriteGrant_portR (n : Nat) (z : Bool) :
    (b.setWriteGrant n z).portR = b.portR := rfl
@[simp] theorem Body.setWriteGrant_portC (n : Nat) (z : Bool) :
    (b.setWriteGrant n z).portC = b.portC := rfl
@[simp] theorem Body.setWriteGrant_mem (n : Nat) (z : Bool) :
    (b.setWriteGrant n z).mem = b.mem := rfl
@[simp] theorem Body.setWriteGrant_oracle (n : Nat) (z : Bool) :
    (b.setWriteGrant n z).oracle = b.oracle := rfl
@[simp] theorem Body.setWriteGrant_active (n : Nat) (z : Bool) :
    (b.setWriteGrant n z).active = b.active := rfl
@[simp] theorem Body.setWriteGrant_sched (n : Nat) (z : Bool) :
    (b.setWriteGrant n z).sched = b.sched := rfl

/-! ### `Body.setReadGrant` -/

@[simp] theorem Body.setReadGrant_cap (n : Nat) (z : Bool) :
    (b.setReadGrant n z).cap = b.cap := rfl
@[simp] theorem Body.setReadGrant_widx (n : Nat) (z : Bool) :
    (b.setReadGrant n z).widx = b.widx := rfl
@[simp] theorem Body.setReadGrant_ridx (n : Nat) (z : Bool) :
    (b.setReadGrant n z).ridx = b.ridx := rfl
@[simp] theorem Body.setReadGrant_bmask (n : Nat) (z : Bool) :
    (b.setReadGrant n z).bmask = b.bmask := rfl
@[simp] theorem Body.setReadGrant_smask (n : Nat) (z : Bool) :
    (b.setReadGrant n z).smask = b.smask := rfl
@[simp] theorem Body.setReadGrant_esz (n : Nat) (z : Bool) :
    (b.setReadGrant n z).esz = b.esz := rfl
@[simp] theorem Body.setReadGrant_base (n : Nat) (z : Bool) :
    (b.setReadGrant n z).base = b.base := rfl
@[simp] theorem Body.setReadGrant_owned (n : Nat) (z : Bool) :
    (b.setReadGrant n z).owned = b.owned := rfl
@[simp] theorem Body.setReadGrant_constructed (n : Nat) (z : Bool) :
    (b.setReadGrant n z).constructed = b.constructed := rfl
@[simp] theorem Body.setReadGrant_writer (n : Nat) (z : Bool) :
    (b.setReadGrant n z).writer = b.writer := rfl
@[simp] theorem Body.setReadGrant_reader (n : Nat) (z : Bool) :
    (b.setReadGrant n z).reader = b.reader := rfl
@[simp] theorem Body.setReadGrant_portW (n : Nat) (z : Bool) :
    (b.setReadGrant n z).portW = b.portW := rfl
@[simp] theorem Body.setReadGrant_portR (n : Nat) (z : Bool) :
    (b.setReadGrant n z).portR = b.portR := rfl
@[simp] theorem Body.setReadGrant_portC (n : Nat) (z : Bool) :
    (b.setReadGrant n z).portC = b.portC := rfl
@[simp] theorem Body.setReadGrant_mem (n : Nat) (z : Bool) :
    (b.setReadGrant n z).mem = b.mem := rfl
@[simp] theorem Body.setReadGrant_oracle (n : Nat) (z : Bool) :
    (b.setReadGrant n z).oracle = b.oracle := rfl
@[simp] theorem Body.setReadGrant_active (n : Nat) (z : Bool) :
    (b.setReadGrant n z).active = b.active := rfl
@[simp] theorem Body.setReadGrant_sched (n : Nat) (z : Bool) :
    (b.setReadGrant n z).sched = b.sched := rfl

/-! ### `Body.clearGhost` -/

@[simp] theorem Body.clearGhost_cap :
    (b.clearGhost).cap = b.cap := rfl
@[simp] theorem Body.clearGhost_widx :
    (b.clearGhost).widx = b.widx := rfl
@[simp] theorem Body.clearGhost_ridx :
    (b.clearGhost).ridx = b.ridx := rfl
@[simp] theorem Body.clearGhost_bmask :
    (b.clearGhost).bmask = b.bmask := rfl
@[simp] theorem Body.clearGhost_smask :
    (b.clearGhost).smask = b.smask := rfl
@[simp] theorem Body.clearGhost_esz :
    (b.clearGhost).esz = b.esz := rfl
@[simp] theorem Body.clearGhost_base :
    (b.clearGhost).base = b.base := rfl
@[simp] theorem Body.clearGhost_owned :
    (b.clearGhost).owned = b.owned := rfl
@[simp] theorem Body.clearGhost_constructed :
    (b.clearGhost).constructed = b.constructed := rfl
@[simp] theorem Body.clearGhost_writer :
    (b.clearGhost).writer = b.writer := rfl
@[simp] theorem Body.clearGhost_reader :
    (b.clearGhost).reader = b.reader := rfl
@[simp] theorem Body.clearGhost_portW :
    (b.clearGhost).portW = b.portW := rfl
@[simp] theorem Body.clearGhost_portR :
    (b.clearGhost).portR = b.portR := rfl
@[simp] theorem Body.clearGhost_portC :
    (b.clearGhost).portC = b.portC := rfl
@[simp] theorem Body.clearGhost_mem :
    (b.clearGhost).mem = b.mem := rfl
@[simp] theorem Body.clearGhost_oracle :
    (b.clearGhost).oracle = b.oracle := rfl
@[simp] theorem Body.clearGhost_active :
    (b.clearGhost).active = b.active := rfl
@[simp] theorem Body.clearGhost_sched :
    (b.clearGhost).sched = b.sched := rfl

/-! ### `Body.putByte` -/

@[simp] theorem Body.putByte_cap (a : Word w) (v : Byte) :
    (b.putByte a v).cap = b.cap := rfl
@[simp] theorem Body.putByte_widx (a : Word w) (v : Byte) :
    (b.putByte a v).widx = b.widx := rfl
@[simp] theorem Body.putByte_ridx (a : Word w) (v : Byte) :
    (b.putByte a v).ridx = b.ridx := rfl
@[simp] theorem Body.putByte_bmask (a : Word w) (v : Byte) :
    (b.putByte a v).bmask = b.bmask := rfl
@[simp] theorem Body.putByte_smask (a : Word w) (v : Byte) :
    (b.putByte a v).smask = b.smask := rfl
@[simp] theorem Body.putByte_esz (a : Word w) (v : Byte) :
    (b.putByte a v).esz = b.esz := rfl
@[simp] theorem Body.putByte_base (a : Word w) (v : Byte) :
    (b.putByte a v).base = b.base := rfl
@[simp] theorem Body.putByte_owned (a : Word w) (v : Byte) :
    (b.putByte a v).owned = b.owned := rfl
@[simp] theorem Body.putByte_constructed (a : Word w) (v : Byte) :
    (b.putByte a v).constructed = b.constructed := rfl
@[simp] theorem Body.putByte_writer (a : Word w) (v : Byte) :
    (b.putByte a v).writer = b.writer := rfl
@[simp] theorem Body.putByte_reader (a : Word w) (v : Byte) :
    (b.putByte a v).reader = b.reader := rfl
@[simp] theorem Body.putByte_portW (a : Word w) (v : Byte) :
    (b.putByte a v).portW = b.portW := rfl
@[simp] theorem Body.putByte_portR (a : Word w) (v : Byte) :
    (b.putByte a v).portR = b.portR := rfl
@[simp] theorem Body.putByte_portC (a : Word w) (v : Byte) :
    (b.putByte a v).portC = b.portC := rfl
@[simp] theorem Body.putByte_ghost (a : Word w) (v : Byte) :
    (b.putByte a v).ghost = b.ghost := rfl
@[simp] theorem Body.putByte_oracle (a : Word w) (v : Byte) :
    (b.putByte a v).oracle = b.oracle := rfl
@[simp] theorem Body.putByte_active (a : Word w) (v : Byte) :
    (b.putByte a v).active = b.active := rfl
@[simp] theorem Body.putByte_sched (a : Word w) (v : Byte) :
    (b.putByte a v).sched = b.sched := rfl

/-! ### Ports -/

@[simp] theorem Body.port_setPort_self (p : PortId) (q : Port w) : (b.setPort p q).port p = q := by
  cases p <;> rfl

@[simp] theorem Body.port_setPort_other {p p' : PortId} (q : Port w) (h : p' ≠ p) :
    (b.setPort p q).port p' = b.port p' := by
  cases p <;> cases p' <;> first | rfl | exact absurd rfl h

@[simp] theorem Body.setPort_setPort (p : PortId) (q q' : Port w) :
    (b.setPort p q).setPort p q' = b.setPort p q' := by cases p <;> rfl

@[simp] theorem Body.setPort_port_self (p : PortId) : b.setPort p (b.port p) = b := by cases p <;> rfl

@[simp] theorem Body.port_recordIf (c : Bool) (x : MFault) (p : PortId) :
    (b.recordIf c x).port p = b.port p := by cases p <;> rfl

@[simp] theorem Body.port_setWriteGrant (n : Nat) (z : Bool) (p : PortId) :
    (b.setWriteGrant n z).port p = b.port p := by cases p <;> rfl

@[simp] theorem Body.port_setReadGrant (n : Nat) (z : Bool) (p : PortId) :
    (b.setReadGrant n z).port p = b.port p := by cases p <;> rfl

@[simp] theorem Body.port_clearGhost (p : PortId) : b.clearGhost.port p = b.port p := by
  cases p <;> rfl

@[simp] theorem Body.port_putByte (a : Word w) (v : Byte) (p : PortId) :
    (b.putByte a v).port p = b.port p := by cases p <;> rfl

/-- The issuing port after a response on it. -/
@[simp] theorem Body.port_respondOn_self (p : PortId) (st : Status) (r0 r1 r2 r3 r4 : Word w) :
    (b.respondOn p st r0 r1 r2 r3 r4).port p = (b.port p).answer st r0 r1 r2 r3 r4 :=
  b.port_setPort_self p _

/-- Another port after a response. -/
@[simp] theorem Body.port_respondOn_other {p p' : PortId} (st : Status) (r0 r1 r2 r3 r4 : Word w)
    (h : p' ≠ p) : (b.respondOn p st r0 r1 r2 r3 r4).port p' = b.port p' :=
  b.port_setPort_other _ h

@[simp] theorem Body.port_ok_self (r0 : Word w) :
    (b.ok r0).port b.active = (b.port b.active).answer .ok r0 0 0 0 0 := b.port_respondOn_self ..

@[simp] theorem Body.port_raise_self (st : Status) :
    (b.raise st).port b.active = (b.port b.active).answer st 0 0 0 0 0 := b.port_respondOn_self ..

/-! ### Ghost state -/

@[simp] theorem Body.setWriteGrant_ghost (n : Nat) (z : Bool) :
    (b.setWriteGrant n z).ghost = { b.ghost with wgrant := n, wzc := z } := rfl

@[simp] theorem Body.setReadGrant_ghost (n : Nat) (z : Bool) :
    (b.setReadGrant n z).ghost = { b.ghost with rgrant := n, rzc := z } := rfl

@[simp] theorem Body.clearGhost_ghost :
    b.clearGhost.ghost = ⟨0, 0, 0, 0, false, false, b.ghost.faults⟩ := rfl

@[simp] theorem Body.recordIf_ghost (c : Bool) (x : MFault) :
    (b.recordIf c x).ghost =
      { b.ghost with faults := if c then b.ghost.faults.add x else b.ghost.faults } := rfl

/-- A recorded name is in the set. -/
@[simp] theorem FaultSet.has_add_self (f : FaultSet) (x : MFault) : (f.add x).has x = true := by
  cases x <;> rfl

/-- Recording a name takes none out. -/
theorem FaultSet.has_add_mono (f : FaultSet) (x y : MFault) (h : f.has y = true) :
    (f.add x).has y = true := by
  cases x <;> cases y <;> first | exact h | rfl

/-- A set to which a name was added is not empty. -/
@[simp] theorem FaultSet.add_ne_empty (f : FaultSet) (x : MFault) : f.add x ≠ .empty := by
  cases x <;> simp [FaultSet.add, FaultSet.empty]

/-- The state of `State.update`, at the width it was taken at. -/
@[simp] theorem State.update_mk (f : Body w → Body w) :
    State.update ⟨w, b⟩ f = ⟨w, f b⟩ := rfl

end Sys2Proof.Machine
end

