-- ==== Sys2Proof/Laws/Step.lean ====
section
/-! SUPPORT. What `exec` and `step` answer, said once: always a next state at the same width, given by
a function of the body alone. -/

namespace Sys2Proof.Machine

variable {w : Width} (b : Body w)

/-- The body after the accept step of a command. -/
def Body.effect (b : Body w) : Instr → Body w
  | .new => b.command .new (b.new b.opa b.opb)
  | .newWithStorage => b.command .newWithStorage (b.newWithStorage b.opa b.opb b.opc)
  | .destroy => b.constructedCommand .destroy b.destroy
  | .flush => b.constructedCommand .flush b.flush
  | .readReg => b.constructedCommand .readReg (b.readReg b.opa)
  | .len => b.constructedCommand .len (b.ok b.cap)
  | .elementSize => b.constructedCommand .elementSize (b.ok b.esz)
  | .writeAvailable => b.constructedCommand .writeAvailable b.writeAvailable
  | .write => b.constructedCommand .write (b.acceptWrite b.opa b.opb b.opc)
  | .getWriteRegions => b.constructedCommand .getWriteRegions (b.getWriteRegions b.opa)
  | .advanceWriteIndex => b.constructedCommand .advanceWriteIndex (b.advanceWriteIndex b.opa)
  | .readAvailable => b.constructedCommand .readAvailable b.readAvailable
  | .read => b.constructedCommand .read (b.acceptRead b.opa b.opb)
  | .readInto => b.constructedCommand .readInto (b.acceptReadInto b.opa b.opb)
  | .getReadRegions => b.constructedCommand .getReadRegions (b.getReadRegions b.opa)
  | .advanceReadIndex => b.constructedCommand .advanceReadIndex (b.advanceReadIndex b.opa)

/-- `exec` always answers a next state, at the same width. -/
theorem exec_eq (i : Instr) : exec i ⟨w, b⟩ = .next ⟨w, b.effect i⟩ := by cases i <;> rfl

/-- The body after a port accepted the command word on its lines. -/
def Body.accepted (b : Body w) (p : PortId) : Body w :=
  match decode (b.port p).lines.word with
  | .ok i => (b.accept p).effect i
  | .error _ => (b.accept p).raise .illegalCommand

/-- The body after one agent's step. -/
def Body.moved (b : Body w) : Move w → Body w
  | .present p c => b.present p c
  | .accept p => if b.ready p then b.accepted p else b
  | .machine d => b.machineStep d
  | .load p a => b.clientLoad p a
  | .store p a v => b.clientStore p a v

/-- The body after one step. -/
def Body.stepped (b : Body w) : Body w :=
  match b.sched with
  | [] => b
  | m :: rest => Body.moved { b with sched := rest } m

/-- `step` always answers a next state, at the same width: the body `Body.stepped`. -/
theorem step_eq : step ⟨w, b⟩ = .next ⟨w, b.stepped⟩ := by
  unfold step State.fetch Body.stepped
  cases hs : b.sched with
  | nil => rfl
  | cons m rest =>
    cases m with
    | accept p =>
      by_cases hr : ({ b with sched := rest } : Body w).ready p = true
      · simp only [hr, Body.moved, Body.accepted, if_true]
        cases decode (({ b with sched := rest } : Body w).port p).lines.word with
        | ok i => exact exec_eq _ i
        | error e => rfl
      · simp only [hr, Body.moved]
        rfl
    | present p c => rfl
    | machine d => rfl
    | load p a => rfl
    | store p a v => rfl

/-- What a step that answered did. -/
theorem step_inv {b' : Body w} (h : step ⟨w, b⟩ = .next ⟨w, b'⟩) : b' = b.stepped := by
  rw [step_eq] at h
  injection h with h
  injection h with _ h
  exact h.symm

/-- What a command that answered did. -/
theorem exec_inv {i : Instr} {b' : Body w} (h : exec i ⟨w, b⟩ = .next ⟨w, b'⟩) :
    b' = b.effect i := by
  rw [exec_eq] at h
  injection h with h
  injection h with _ h
  exact h.symm

/-- The step of the first move of the schedule. -/
theorem stepped_cons {m : Move w} {rest : List (Move w)} (h : b.sched = m :: rest) :
    b.stepped = Body.moved { b with sched := rest } m := by
  rw [Body.stepped, h]

/-- With nothing coming the machine waits (R323). -/
theorem stepped_nil (h : b.sched = []) : b.stepped = b := by rw [Body.stepped, h]

/-! ### The two checks before a rule -/

/-- A command on a port its row names runs its rule (R104). -/
theorem command_of_port {i : Instr} {rule : Body w} (h : b.active ∈ i.ports) :
    b.command i rule = rule := if_pos h

/-- A command on another port answers `WrongPort` (R104). -/
theorem command_of_wrong_port {i : Instr} {rule : Body w} (h : b.active ∉ i.ports) :
    b.command i rule = b.raise .wrongPort := if_neg h

/-- A command of a constructed block on a port its row names runs its rule (R285). -/
theorem constructedCommand_of_port {i : Instr} {rule : Body w} (h : b.active ∈ i.ports)
    (hc : b.constructed = true) : b.constructedCommand i rule = rule := by
  rw [Body.constructedCommand, command_of_port b h, if_pos hc]

/-- The three outcomes of the two checks. -/
theorem constructedCommand_cases (i : Instr) (rule : Body w) :
    b.constructedCommand i rule = b.raise .wrongPort ∨
      b.constructedCommand i rule = b.raise .notConstructed ∨
      (b.active ∈ i.ports ∧ b.constructed = true ∧ b.constructedCommand i rule = rule) := by
  unfold Body.constructedCommand Body.command
  by_cases h : b.active ∈ i.ports <;> by_cases hc : b.constructed = true <;> simp [h, hc]

/-- The two outcomes of the port check. -/
theorem command_cases (i : Instr) (rule : Body w) :
    b.command i rule = b.raise .wrongPort ∨ (b.active ∈ i.ports ∧ b.command i rule = rule) := by
  unfold Body.command
  by_cases h : b.active ∈ i.ports <;> simp [h]

end Sys2Proof.Machine
end

