-- ==== Sys2Proof/Laws/Frames.lean ====
section
/-! SUPPORT. What a response, a recorded fault, an allocator request and an accept step leave
unchanged; and that the invariants depend on no more than the fields they name. -/

namespace Sys2Proof.Machine

variable {w : Width}

/-- Machines with the same three ports agree on every port. -/
theorem port_eq_of_fields {b c : Body w} (h1 : c.portW = b.portW) (h2 : c.portR = b.portR)
    (h3 : c.portC = b.portC) (q : PortId) : c.port q = b.port q := by
  cases q <;> assumption

/-- A response on `p` is what port `p` shows. -/
theorem answered_respondOn (b : Body w) (p : PortId) (st : Status) (r0 r1 r2 r3 r4 : Word w) :
    Answered ((b.respondOn p st r0 r1 r2 r3 r4).port p) st.code r0 r1 r2 r3 r4 := by
  simp [Answered, Port.answer]

/-- A response on `p` changes the response registers of port `p` only. -/
theorem onlyAnswers_respondOn {b c : Body w} (p : PortId) (st : Status) (r0 r1 r2 r3 r4 : Word w)
    (h : ∀ q, c.port q = b.port q) : OnlyAnswers p b (c.respondOn p st r0 r1 r2 r3 r4) := by
  refine ⟨fun q hq => ?_, ?_, ?_, ?_⟩
  · rw [Body.port_respondOn_other _ _ _ _ _ _ _ hq, h]
  all_goals simp [Port.answer, h]

/-- A response on the active port is all its command did. -/
theorem onlyResponds_respondOn (b : Body w) (st : Status) (r0 r1 r2 r3 r4 : Word w) :
    OnlyResponds b (b.respondOn b.active st r0 r1 r2 r3 r4) :=
  ⟨by simp [SameRegisters, SameConfig], by simp [SameMachines], by simp, by simp [SameMemory],
    onlyAnswers_respondOn _ _ _ _ _ _ _ fun _ => rfl, by simp [SameSurroundings]⟩

/-- A step that records a fault where `c` holds leaves the fault set empty only where `c` does not
hold and the set was empty. -/
theorem recordIf_empty {b : Body w} {c : Bool} {x : MFault}
    (h : (b.recordIf c x).ghost.faults = .empty) : c = false ∧ b.ghost.faults = .empty := by
  rw [Body.recordIf_ghost] at h
  cases c
  · exact ⟨rfl, by simpa using h⟩
  · simp at h

/-- What a request to the oracle does: an answer used up and no region, with all else unchanged; or a
legal region granted, holding the bytes the answer brings (R10). -/
theorem allocRequest_cases (b : Body w) (n : Nat) :
    (∃ answers, b.allocRequest n = ({ b with oracle := ⟨answers, b.oracle.live⟩ }, none)) ∨
      ∃ base bytes rest, b.oracle.answers = .grant base bytes :: rest ∧
        b.oracle.mayGrant base.toNat n = true ∧
        b.allocRequest n = ({ b with
          oracle := ⟨rest, (base.toNat, n) :: b.oracle.live⟩,
          mem := memOverlay b.mem base (bytes.take n) }, some base) := by
  unfold Body.allocRequest
  split
  · exact .inl ⟨b.oracle.answers, rfl⟩
  · exact .inl ⟨_, rfl⟩
  · rename_i base bytes rest heq
    by_cases h : b.oracle.mayGrant base.toNat n = true
    · exact .inr ⟨base, bytes, rest, heq, h, by rw [if_pos h]⟩
    · exact .inl ⟨rest, by rw [if_neg h]⟩

/-- The buffer check depends on the storage only. -/
theorem badBuffer_congr {b c : Body w} (h1 : c.cap = b.cap) (h2 : c.esz = b.esz)
    (h3 : c.base = b.base) (buf : Word w) (n : Nat) : c.badBuffer buf n = b.badBuffer buf n := by
  simp only [Body.badBuffer, Body.storageBytes, h1, h2, h3]

/-- The invariant of every state depends on the registers, the logical indices, the live regions and
the form of the memory only. -/
theorem inv_congr {b c : Body w} (h : b.Inv) (hr : SameRegisters b c)
    (hw : c.ghost.wlog = b.ghost.wlog) (hl : c.ghost.rlog = b.ghost.rlog)
    (hm : memWf w c.mem = true) (ho : c.oracle.live = b.oracle.live) : c.Inv := by
  obtain ⟨⟨h1, h2, h3, h4, h5, h6, h7⟩, h8, h9⟩ := hr
  refine ⟨hm, ?_, ?_, ?_, ?_, ?_⟩
  · rw [h1, h2, h3, h4, h5, h6, h7, h8, h9]
    exact h.unconstructed
  · rw [h7]
    intro hc
    obtain ⟨k1, k2, k3, k4, k5, k6, k7⟩ := h.constructed hc
    exact ⟨by rw [h1]; exact k1, by rw [h1, h2]; exact k2, by rw [h1, h3]; exact k3,
      by rw [h4]; exact k4, by rw [Body.storageBytes, h1, h4]; exact k5,
      by rw [h1, h8, hw]; exact k6, by rw [h1, h9, hl]; exact k7⟩
  · rw [ho]
    exact h.liveApart
  · rw [ho]
    exact h.liveFits
  · rw [h5, h6, ho, Body.storageBytes, h1, h4]
    exact h.ownedLive

/-- A busy machine's share depends on the configuration only. -/
theorem busy_congr {m : PortMachine w} {b c : Body w} {avail grant : Nat} {zc : Bool}
    (h : m.Busy b avail grant zc) (hc : SameConfig b c) : m.Busy c avail grant zc := by
  obtain ⟨a1, -, -, a4, a5, -, a7⟩ := hc
  obtain ⟨q1, q2, q3, q4, q5, q6, q7⟩ := h
  exact ⟨by rw [a7]; exact q1, q2, q3, q4, by rw [badBuffer_congr a1 a4 a5, a4]; exact q5,
    by rw [a4]; exact q6, by rw [a4]; exact q7⟩

/-- The contract invariant depends on the configuration, the machines and the ghost items beside the
fault set only. -/
theorem clean_congr {b c : Body w} (h : b.Clean) (hr : SameConfig b c) (hm : SameMachines b c)
    (h1 : c.ghost.wlog = b.ghost.wlog) (h2 : c.ghost.rlog = b.ghost.rlog)
    (h3 : c.ghost.wgrant = b.ghost.wgrant) (h4 : c.ghost.rgrant = b.ghost.rgrant)
    (h5 : c.ghost.wzc = b.ghost.wzc) (h6 : c.ghost.rzc = b.ghost.rzc) : c.Clean := by
  have hr' := hr
  obtain ⟨a1, -, -, a4, a5, -, a7⟩ := hr
  have hf : c.filled = b.filled := by simp only [Body.filled, h1, h2]
  refine ⟨?_, ?_, ?_, ?_, ?_⟩
  · simpa only [hf, a7, h1, h2, a1] using h.ordered
  · simpa only [hf, a7, a1, h3, h4] using h.grants
  · simpa only [Body.storageBytes, a7, a1, a4, a5] using h.unwrapped
  · rw [hm.1, h3, h5, hf, a1]
    exact fun hb => busy_congr (h.writing hb) hr'
  · rw [hm.2, h4, h6, hf]
    exact fun hb => busy_congr (h.reading hb) hr'

end Sys2Proof.Machine
end

