-- ==== Sys2Proof/Laws/Memory.lean ====
section
/-! SUPPORT. The laws of memory: the canonical form is kept, a byte written is the byte read, and
every other byte stays. -/

namespace Sys2Proof.Machine

variable {w : Width}

/-- An address no entry lists reads as the unlisted byte. -/
theorem memRead_of_lt {m : List Host.Cell} {a : Nat} (h : ∀ c ∈ m, a < c.1) :
    memRead m a = Config.unlistedByte := by
  induction m with
  | nil => rfl
  | cons c rest ih =>
    have hc := h c (by simp)
    rw [memRead, if_neg (by omega)]
    exact ih fun d hd => h d (by simp [hd])

/-- The one written byte, put before other cells, is not seen at another address. -/
theorem memRead_memCell_append_other {m : List Host.Cell} {a x : Nat} (v : Byte) (h : x ≠ a) :
    memRead (memCell a v ++ m) x = memRead m x := by
  by_cases hv : v = Config.unlistedByte <;> simp [memCell, hv, memRead, Ne.symm h]

/-- A write leaves every other byte as it was. -/
theorem memRead_memWrite_other {m : List Host.Cell} {a x : Nat} (v : Byte) (h : x ≠ a) :
    memRead (memWrite m a v) x = memRead m x := by
  induction m with
  | nil => simpa [memWrite] using memRead_memCell_append_other (m := []) v h
  | cons c rest ih =>
    obtain ⟨k, y⟩ := c
    rw [memWrite]
    split_ifs with h1 h2
    · exact memRead_memCell_append_other v h
    · rw [memRead_memCell_append_other v h, memRead, if_neg (by omega)]
    · simp only [memRead, ih]

/-- A byte written to a canonical memory is the byte read. -/
theorem memRead_memWrite_self {m : List Host.Cell} (a : Nat) (v : Byte)
    (h : m.Pairwise fun x y => x.1 < y.1) : memRead (memWrite m a v) a = v := by
  induction m with
  | nil => by_cases hv : v = Config.unlistedByte <;> simp [memWrite, memCell, memRead, hv]
  | cons c rest ih =>
    rw [List.pairwise_cons] at h
    rw [memWrite]
    split_ifs with h1 h2
    · by_cases hv : v = Config.unlistedByte
      · simp only [memCell, hv, if_true, List.nil_append]
        refine memRead_of_lt fun d hd => ?_
        rcases List.mem_cons.1 hd with rfl | hd
        · exact h1
        · exact h1.trans (h.1 d hd)
      · simp [memCell, hv, memRead]
    · by_cases hv : v = Config.unlistedByte
      · simp only [memCell, hv, if_true, List.nil_append]
        exact memRead_of_lt fun d hd => h2 ▸ h.1 d hd
      · simp [memCell, hv, memRead]
    · rw [memRead, if_neg (by omega)]
      exact ih h.2

/-- What `memWf` says, as propositions. -/
theorem memWf_iff {m : List Host.Cell} : memWf w m = true ↔
    m.Pairwise (fun x y => x.1 < y.1) ∧ ∀ c ∈ m, c.1 < w.size ∧ c.2 ≠ Config.unlistedByte := by
  simp [memWf]

/-- The cells of one written byte. -/
theorem mem_memCell {a : Nat} {v : Byte} {c : Host.Cell} :
    c ∈ memCell a v ↔ c = (a, v) ∧ v ≠ Config.unlistedByte := by
  by_cases hv : v = Config.unlistedByte <;> simp [memCell, hv]

/-- The entries after a write are old ones or the written one. -/
theorem mem_memWrite {m : List Host.Cell} {a : Nat} {v : Byte} {c : Host.Cell}
    (h : c ∈ memWrite m a v) : c ∈ m ∨ (c = (a, v) ∧ v ≠ Config.unlistedByte) := by
  induction m with
  | nil => exact .inr (mem_memCell.1 h)
  | cons d rest ih =>
    rw [memWrite] at h
    split_ifs at h
    · rcases List.mem_append.1 h with h | h
      · exact .inr (mem_memCell.1 h)
      · exact .inl h
    · rcases List.mem_append.1 h with h | h
      · exact .inr (mem_memCell.1 h)
      · exact .inl (by simp [h])
    · rcases List.mem_cons.1 h with h | h
      · exact .inl (by simp [h])
      · rcases ih h with h | h
        · exact .inl (by simp [h])
        · exact .inr h

/-- A write keeps the addresses strictly rising. -/
theorem memWrite_pairwise {m : List Host.Cell} (a : Nat) (v : Byte)
    (h : m.Pairwise fun x y => x.1 < y.1) : (memWrite m a v).Pairwise fun x y => x.1 < y.1 := by
  induction m with
  | nil => by_cases hv : v = Config.unlistedByte <;> simp [memWrite, memCell, hv]
  | cons c rest ih =>
    have h' := List.pairwise_cons.1 h
    rw [memWrite]
    split_ifs with h1 h2
    · refine List.pairwise_append.2 ⟨?_, h, ?_⟩
      · by_cases hv : v = Config.unlistedByte <;> simp [memCell, hv]
      · intro x hx y hy
        obtain ⟨rfl, -⟩ := mem_memCell.1 hx
        rcases List.mem_cons.1 hy with rfl | hy
        · exact h1
        · exact h1.trans (h'.1 y hy)
    · refine List.pairwise_append.2 ⟨?_, h'.2, ?_⟩
      · by_cases hv : v = Config.unlistedByte <;> simp [memCell, hv]
      · intro x hx y hy
        obtain ⟨rfl, -⟩ := mem_memCell.1 hx
        exact h2 ▸ h'.1 y hy
    · refine List.pairwise_cons.2 ⟨fun y hy => ?_, ih h'.2⟩
      rcases mem_memWrite hy with hy | ⟨rfl, -⟩
      · exact h'.1 y hy
      · show c.1 < a
        omega

/-- `MemWrite` below `2^W` keeps the canonical form. -/
theorem memWf_memWrite {m : List Host.Cell} {a : Nat} (v : Byte) (h : memWf w m = true)
    (ha : a < w.size) : memWf w (memWrite m a v) = true := by
  obtain ⟨h1, h2⟩ := memWf_iff.1 h
  refine memWf_iff.2 ⟨memWrite_pairwise a v h1, fun c hc => ?_⟩
  rcases mem_memWrite hc with hc | ⟨rfl, hv⟩
  · exact h2 c hc
  · exact ⟨ha, hv⟩

/-- The bytes a grant brings keep the canonical form. -/
theorem memWf_memOverlay {m : List Host.Cell} (a : Word w) (bytes : List Byte)
    (h : memWf w m = true) : memWf w (memOverlay m a bytes) = true := by
  induction bytes generalizing m a with
  | nil => exact h
  | cons v rest ih => exact ih _ (memWf_memWrite v h a.isLt)

/-- The memory of reset is canonical. -/
theorem memWf_nil : memWf w [] = true := rfl

/-- The next word address of one below the last, as a natural number. -/
theorem toNat_add_one {a : Word w} (h : a.toNat + 1 < w.size) : (a + 1).toNat = a.toNat + 1 := by
  have h2 : (1 : Word w).toNat = 1 := by cases w <;> rfl
  rw [BitVec.toNat_add, h2, Nat.mod_eq_of_lt h]

/-- Bytes laid down from `a` on, in a range that does not wrap, leave every byte outside it. -/
theorem memRead_memOverlay_outside {m : List Host.Cell} (a : Word w) (bytes : List Byte) {x : Nat}
    (hfit : a.toNat + bytes.length ≤ w.size) (hx : ¬(a.toNat ≤ x ∧ x < a.toNat + bytes.length)) :
    memRead (memOverlay m a bytes) x = memRead m x := by
  induction bytes generalizing m a with
  | nil => rfl
  | cons v rest ih =>
    simp only [List.length_cons] at hfit hx
    rw [memOverlay]
    by_cases hr : rest = []
    · subst hr
      exact memRead_memWrite_other v (by omega)
    · have : 0 < rest.length := List.length_pos_of_ne_nil hr
      have hn := toNat_add_one (a := a) (by omega)
      rw [ih (a + 1) (by omega) (by omega)]
      exact memRead_memWrite_other v (by omega)

/-- Bytes laid down from `a` on, in a range that does not wrap, are the bytes read there. -/
theorem memRead_memOverlay_inside {m : List Host.Cell} (a : Word w) (bytes : List Byte)
    (hm : memWf w m = true) (hfit : a.toNat + bytes.length ≤ w.size) {k : Nat} {v : Byte}
    (hk : bytes[k]? = some v) : memRead (memOverlay m a bytes) (a.toNat + k) = v := by
  induction bytes generalizing m a k with
  | nil => simp at hk
  | cons u rest ih =>
    simp only [List.length_cons] at hfit
    rw [memOverlay]
    have hw := memWf_memWrite u hm a.isLt
    cases k with
    | zero =>
      have hu : u = v := by simpa using hk
      by_cases hr : rest = []
      · subst hr
        rw [Nat.add_zero, ← hu]
        exact memRead_memWrite_self _ _ (memWf_iff.1 hm).1
      · have : 0 < rest.length := List.length_pos_of_ne_nil hr
        have hn := toNat_add_one (a := a) (by omega)
        rw [memRead_memOverlay_outside _ _ (by omega) (by omega), Nat.add_zero, ← hu]
        exact memRead_memWrite_self _ _ (memWf_iff.1 hm).1
    | succ k =>
      have hk' : rest[k]? = some v := by simpa using hk
      have : k < rest.length := by
        rcases Nat.lt_or_ge k rest.length with h | h
        · exact h
        · simp [List.getElem?_eq_none h] at hk'
      have hn := toNat_add_one (a := a) (by omega)
      have := ih (a + 1) hw (by omega) hk'
      rwa [hn, Nat.add_right_comm, Nat.add_assoc] at this

end Sys2Proof.Machine
end

