-- ==== Sys2Proof/Laws/PerInstr.lean ====
section
/-! SUPPORT. The family of statements about every command as syntax: its word. -/

namespace Sys2Proof.Laws.RoundTrip

open Sys2Proof Sys2Proof.Machine

/-- The command's word decodes to it, has its reserved bits 0 (R100), and is placed on a port its row
names (R104). -/
def Statement (i : Instr) : Prop :=
  decode (encode i) = .ok i ∧ reservedField (encode i) = 0 ∧ placementPort (encode i) ∈ i.ports

theorem new : Statement .new := ⟨rfl, rfl, by decide⟩
theorem newWithStorage : Statement .newWithStorage := ⟨rfl, rfl, by decide⟩
theorem destroy : Statement .destroy := ⟨rfl, rfl, by decide⟩
theorem flush : Statement .flush := ⟨rfl, rfl, by decide⟩
theorem readReg : Statement .readReg := ⟨rfl, rfl, by decide⟩
theorem len : Statement .len := ⟨rfl, rfl, by decide⟩
theorem elementSize : Statement .elementSize := ⟨rfl, rfl, by decide⟩
theorem writeAvailable : Statement .writeAvailable := ⟨rfl, rfl, by decide⟩
theorem write : Statement .write := ⟨rfl, rfl, by decide⟩
theorem getWriteRegions : Statement .getWriteRegions := ⟨rfl, rfl, by decide⟩
theorem advanceWriteIndex : Statement .advanceWriteIndex := ⟨rfl, rfl, by decide⟩
theorem readAvailable : Statement .readAvailable := ⟨rfl, rfl, by decide⟩
theorem read : Statement .read := ⟨rfl, rfl, by decide⟩
theorem readInto : Statement .readInto := ⟨rfl, rfl, by decide⟩
theorem getReadRegions : Statement .getReadRegions := ⟨rfl, rfl, by decide⟩
theorem advanceReadIndex : Statement .advanceReadIndex := ⟨rfl, rfl, by decide⟩

end Sys2Proof.Laws.RoundTrip
end

