-- ==== Sys2Proof/Tests/Slice0.lean ====
section
/-! SUPPORT. Small tests, each of one decoding or one step: expected values from the spec's tables and
95_test_vectors.md; and, for each obligation with hypotheses, a state that meets them together. -/

namespace Sys2Proof.Tests

open Sys2Proof Sys2Proof.Machine

/-! ### States to test on -/

/-- A natural number as a word of width 64, the width of the vectors (95, conventions). -/
abbrev wd (n : Nat) : Word .w64 := BitVec.ofNat 64 n

/-- An unconstructed block with these coming answers of the allocator. -/
def blank (answers : List (AllocAnswer .w64)) : Body .w64 := .resetOf .w64 [] answers []

/-- A constructed block over borrowed storage, whose logical indices are `wlog` and `rlog`. -/
def ring (cap esz base wlog rlog : Nat) : Body .w64 :=
  { blank [] with
    cap := wd cap
    bmask := wd (2 * cap - 1)
    smask := wd (cap - 1)
    esz := wd esz
    base := wd base
    constructed := true
    widx := wd (wlog % (2 * cap))
    ridx := wd (rlog % (2 * cap))
    ghost := { Ghost.reset with wlog := wlog, rlog := rlog } }

/-- The same block with these bytes in memory from `a` on. -/
def put (a : Nat) (bytes : List Nat) (b : Body .w64) : Body .w64 :=
  { b with mem := memOverlay b.mem (wd a) (bytes.map (BitVec.ofNat 8)) }

/-- A command on port `p`, which is the active one. -/
def on (p : PortId) (i : Instr) (x y z : Nat) (b : Body .w64) : Body .w64 :=
  { b.setPort p { b.port p with lines := ⟨encode i, wd x, wd y, wd z⟩ } with active := p }

/-- The same command presented, and its acceptance next in the schedule, then `rest`. -/
def next (p : PortId) (i : Instr) (x y z : Nat) (rest : List (Move .w64)) (b : Body .w64) :
    Body .w64 :=
  { b.setPort p { b.port p with presented := true, lines := ⟨encode i, wd x, wd y, wd z⟩ } with
    sched := .accept p :: rest }

/-- Any word presented on port `p`, and its acceptance next. -/
def nextWord (p : PortId) (word : BitVec 32) (b : Body .w64) : Body .w64 :=
  { b.setPort p { b.port p with presented := true, lines := ⟨word, 0, 0, 0⟩ } with
    sched := [.accept p] }

/-- What a next state shows. -/
def after {α : Type} (o : Host.Outcome State Fault Refusal) (f : State → α) : Option α :=
  match o with
  | .next s => some (f s)
  | _ => none

/-- The response of port `p`: the status code and the five results. -/
def response (p : PortId) (s : State) : Nat × List Nat :=
  let q := s.body.port p
  (q.status.toNat, [q.res0.toNat, q.res1.toNat, q.res2.toNat, q.res3.toNat, q.res4.toNat])

/-- The response of the command on the active port of `b`. -/
def answer (i : Instr) (b : Body .w64) : Option (Nat × List Nat) :=
  after (exec i ⟨.w64, b⟩) (response b.active)

/-- The two index registers. -/
def indices (s : State) : Nat × Nat := (s.body.widx.toNat, s.body.ridx.toNat)

/-- A port machine's state and latches. -/
def latches {w : Width} (m : PortMachine w) : Phase × Nat × Nat × Nat :=
  (m.st, m.n.toNat, m.k.toNat, m.buf.toNat)

/-- `n` bytes of memory from `a` on. -/
def bytesAt (a n : Nat) (s : State) : List Nat :=
  (List.range n).map fun k => (memRead s.body.mem (a + k)).toNat

/-! ### Well-formedness: an ill-formed line for each check -/

theorem test_wf_accepts : Line.wellFormed .w64 ⟨.writer, .write, [0x100, 3, 3]⟩ = true := by decide
theorem test_wf_wrong_port : Line.portOk ⟨.reader, .write, [0x100, 3, 3]⟩ = false := by decide
theorem test_wf_wrong_port_line :
    Line.wellFormed .w64 ⟨.reader, .write, [0x100, 3, 3]⟩ = false := by decide
theorem test_wf_operand_count : Line.operandCountOk ⟨.control, .new, [1]⟩ = false := by decide
theorem test_wf_operand_count_line : Line.wellFormed .w64 ⟨.control, .new, [1]⟩ = false := by decide
theorem test_wf_operand_width :
    Line.operandsFit .w32 ⟨.control, .readReg, [4294967296]⟩ = false := by decide
theorem test_wf_operand_width_line :
    Line.wellFormed .w32 ⟨.control, .readReg, [4294967296]⟩ = false := by decide
theorem test_wf_operand_width_64 :
    Line.wellFormed .w64 ⟨.control, .readReg, [4294967296]⟩ = true := by decide

/-! ### Decoding: the words of R103, and illegal words of 95, 2.1 -/

theorem test_decode_new : decode 0x00000001#32 = .ok .new := rfl
theorem test_decode_newWithStorage : decode 0x00000002#32 = .ok .newWithStorage := rfl
theorem test_decode_destroy : decode 0x00000003#32 = .ok .destroy := rfl
theorem test_decode_flush : decode 0x00000004#32 = .ok .flush := rfl
theorem test_decode_readReg : decode 0x00000005#32 = .ok .readReg := rfl
theorem test_decode_len : decode 0x00000008#32 = .ok .len := rfl
theorem test_decode_elementSize : decode 0x00000009#32 = .ok .elementSize := rfl
theorem test_decode_writeAvailable : decode 0x00000010#32 = .ok .writeAvailable := rfl
theorem test_decode_write : decode 0x00000011#32 = .ok .write := rfl
theorem test_decode_getWriteRegions : decode 0x00000012#32 = .ok .getWriteRegions := rfl
theorem test_decode_advanceWriteIndex : decode 0x00000013#32 = .ok .advanceWriteIndex := rfl
theorem test_decode_readAvailable : decode 0x00000020#32 = .ok .readAvailable := rfl
theorem test_decode_read : decode 0x00000021#32 = .ok .read := rfl
theorem test_decode_readInto : decode 0x00000022#32 = .ok .readInto := rfl
theorem test_decode_getReadRegions : decode 0x00000023#32 = .ok .getReadRegions := rfl
theorem test_decode_advanceReadIndex : decode 0x00000024#32 = .ok .advanceReadIndex := rfl
theorem test_decode_reserved_bit_8 : decode 0x00000111#32 = .error .reservedBits := rfl
theorem test_decode_reserved_bit_31 : decode 0x80000010#32 = .error .reservedBits := rfl

/-- The ends of each range of unused opcodes (R107). -/
theorem test_decode_unused :
    [0x00#32, 0x06#32, 0x07#32, 0x0A#32, 0x0F#32, 0x14#32, 0x1F#32, 0x25#32, 0xFF#32].all
      (fun v => match decode v with | .error .unusedOpcode => true | _ => false) = true := by decide

theorem test_table_word : decodeTableWord 32 0x13 = some .advanceWriteIndex := rfl
theorem test_table_word_reserved : decodeTableWord 32 0x111 = none := rfl

/-- A placed word is run by the very next step, as the first command after reset. -/
theorem test_withFetchWord :
    after (step (State.reset.withFetchWord 32 0x05)) (response .control) =
      some (0x12, [0, 0, 0, 0, 0]) := by decide

/-! ### Assembler (R109, R110) -/

theorem test_assemble_write : assemble .w64 "W.WRITE 0x100, 3, 3" =
    some (.writer, ⟨0x00000011, wd 0x100, wd 3, wd 3⟩) := by decide
theorem test_assemble_new :
    assemble .w64 "C.NEW 1, 4" = some (.control, ⟨0x00000001, wd 1, wd 4, wd 0⟩) := by decide
theorem test_assemble_drain : assemble .w64 "R.DRAIN 0x200" =
    some (.reader, ⟨0x00000021, wd 0x200, wd 18446744073709551615, wd 0⟩) := by decide
theorem test_assemble_try_write : assemble .w64 "W.TRY_WRITE 0x100, 3, 4" =
    some (.writer, ⟨0x00000011, wd 0x100, wd 12, wd 3⟩) := by decide
theorem test_assemble_refuses : assemble .w32 "W.TRY_WRITE 0x100, 0x10000, 0x10000" = none := by
  decide
/-- Log entry 19: spaces around an operand are dropped, one inside it refuses the line. -/
theorem test_assemble_spaces : assemble .w64 "C.NEW  1 ,4 " = assemble .w64 "C.NEW 1, 4" ∧
    assemble .w64 "C.NEW 1 2, 4" = none ∧ assemble .w64 "C.NEW 1, 0x1 00" = none := by decide

/-! ### Combinational functions (95, 2.3 and 2.5 to 2.7) -/

theorem test_isPow2 : [0, 1, 2, 3, 4, 5, 6, 7, 8, 100, 1024, 2 ^ 63, 2 ^ 63 + 1, 2 ^ 64 - 1].map
    (fun n => isPow2 (wd n)) = [false, true, true, false, true, false, false, false, true, false,
      true, true, false, false] := by decide
theorem test_masks_largest : ((bigMask (wd (2 ^ 63))).toNat, (smallMask (wd (2 ^ 63))).toNat) =
    (2 ^ 64 - 1, 2 ^ 63 - 1) := by decide
theorem test_slot : [0, 3, 4, 6, 7].map (fun i => ((ring 4 1 0x1000 0 0).slot (wd i)).toNat) =
    [0, 3, 0, 2, 3] := by decide
theorem test_idxAdd : [(0, 0), (3, 3), (6, 3), (7, 1), (5, 4), (7, 2 ^ 64 - 1)].map
    (fun x => ((ring 4 1 0x1000 0 0).idxAdd (wd x.1) (wd x.2)).toNat) = [0, 6, 1, 0, 1, 6] := by
  decide
theorem test_split : [(0, 4), (3, 3), (3, 4), (6, 2), (7, 1), (5, 0), (2, 4)].map
    (fun x => (ring 4 1 0x1000 0 0).split (wd x.1) (wd x.2)) =
      [((wd 0, wd 4), (wd 0, wd 0)), ((wd 3, wd 1), (wd 0, wd 2)), ((wd 3, wd 1), (wd 0, wd 3)),
       ((wd 2, wd 2), (wd 0, wd 0)), ((wd 3, wd 1), (wd 0, wd 0)), ((wd 1, wd 0), (wd 0, wd 0)),
       ((wd 2, wd 2), (wd 0, wd 2))] := by decide
theorem test_query_unit : [(4, 0), (9, 5), (8, 7), (6, 6), (7, 4)].map
    (fun x => let b := ring 4 1 0x1000 x.1 x.2
      (b.qRA.toNat, b.qWA.toNat, b.qEmpty, b.qFull)) =
    [(4, 0, false, true), (4, 0, false, true), (1, 3, false, false), (0, 4, true, false),
      (3, 1, false, false)] := by decide
theorem test_clamp : [(10, 3), (0, 5), (5, 5), (2 ^ 64 - 1, 3), (100, 2 ^ 64 - 1)].map
    (fun x => ((ring 8 1 0x1000 0 0).clamp (wd x.1) (wd x.2)).toNat) = [3, 0, 5, 3, 8] := by decide

/-- The exported layout of `C.NEW 1, 4` at 0x1000: words 0 and 6, little and big (95, 2.11). -/
theorem test_raw_layout :
    let b := ring 4 1 0x1000 0 0
    ((b.rawLayout .little).length, (b.rawLayout .little).take 2, (b.rawLayout .little).drop 48,
      (b.rawLayout .big).drop 48) =
      (56, [4, 0], [0, 0x10, 0, 0, 0, 0, 0, 0], [0, 0, 0, 0, 0, 0, 0x10, 0]) := by decide

/-! ### One step of each command (95, part 2) -/

theorem test_new :
    answer .new (on .control .new 1 8 0 (blank [.grant (wd 0x1000) []])) =
      some (0, [0x1000, 0, 0, 0, 0]) := by decide
theorem test_new_registers :
    after (exec .new ⟨.w64, on .control .new 1 8 0 (blank [.grant (wd 0x1000) []])⟩)
      (fun s => (s.body.cap.toNat, s.body.bmask.toNat, s.body.smask.toNat, s.body.owned)) =
      some (8, 15, 7, true) := by decide
theorem test_newWithStorage :
    answer .newWithStorage (on .control .newWithStorage 4 0x3000 32 (blank [])) =
      some (0, [0x3000, 0, 0, 0, 0]) := by decide
theorem test_newWithStorage_wraps :
    after (exec .newWithStorage
        ⟨.w64, on .control .newWithStorage 1 (2 ^ 64 - 2) 4 (blank [])⟩)
      (fun s => (s.body.ghost.faults.regionWrap, (s.body.slotAddr 3).toNat)) = some (true, 1) := by
  decide
theorem test_destroy_owned :
    let b := { ring 8 2 0x1000 0 0 with owned := true, oracle := ⟨[], [(0x1000, 16)]⟩ }
    after (exec .destroy ⟨.w64, on .control .destroy 0 0 0 b⟩)
      (fun s => (s.body.constructed, s.body.oracle.live, s.body.base.toNat)) =
      some (false, [], 0) := by decide
theorem test_destroy_twice :
    answer .destroy (on .control .destroy 0 0 0 (blank [])) = some (0x12, [0, 0, 0, 0, 0]) := by decide
theorem test_flush :
    after (exec .flush ⟨.w64, on .control .flush 0 0 0 (ring 8 1 0x1000 5 2)⟩)
      (fun s => (indices s, s.body.qWA.toNat, s.body.ghost.faults.flushInFlight)) =
      some ((0, 0), 8, false) := by decide
theorem test_flush_in_flight :
    after (exec .flush
        ⟨.w64, on .control .flush 0 0 0 ((ring 8 1 0x1000 5 5).setWriteGrant 2 true)⟩)
      (fun s => s.body.ghost.faults.flushInFlight) = some true := by decide
theorem test_readReg : [0, 1, 2, 3, 4, 5, 6].map
    (fun k => answer .readReg (on .control .readReg k 0 0 (ring 4 1 0x1000 0 0))) =
      [4, 0, 0, 7, 3, 1, 0x1000].map (fun v => some (0, [v, 0, 0, 0, 0])) := by decide
theorem test_readReg_invalid : [7, 2 ^ 64 - 1].map
    (fun k => answer .readReg (on .control .readReg k 0 0 (ring 4 1 0x1000 0 0))) =
      [some (0x16, [0, 0, 0, 0, 0]), some (0x16, [0, 0, 0, 0, 0])] := by decide
theorem test_len :
    answer .len (on .reader .len 0 0 0 (ring 8 1 0x1000 0 0)) = some (0, [8, 0, 0, 0, 0]) := by decide
theorem test_elementSize :
    answer .elementSize (on .writer .elementSize 0 0 0 (ring 8 4 0x3000 0 0)) =
      some (0, [4, 0, 0, 0, 0]) := by decide
theorem test_writeAvailable :
    after (exec .writeAvailable ⟨.w64, on .writer .writeAvailable 0 0 0 (ring 8 1 0x1000 5 0)⟩)
      (fun s => (response .writer s, s.body.ghost.wgrant)) = some ((0, [3, 0, 0, 0, 0]), 3) := by
  decide
theorem test_writeAvailable_reader :
    after (exec .writeAvailable ⟨.w64, on .reader .writeAvailable 0 0 0 (ring 8 1 0x1000 5 0)⟩)
      (fun s => (response .reader s, s.body.ghost.wgrant)) = some ((0, [3, 0, 0, 0, 0]), 0) := by
  decide
theorem test_readAvailable :
    after (exec .readAvailable ⟨.w64, on .reader .readAvailable 0 0 0 (ring 8 1 0x1000 5 0)⟩)
      (fun s => (response .reader s, s.body.ghost.rgrant)) = some ((0, [5, 0, 0, 0, 0]), 5) := by
  decide
theorem test_write_partial :
    after (exec .write ⟨.w64, on .writer .write 0x100 5 5 (ring 4 1 0x1000 3 0)⟩)
      (fun s => latches s.body.writer) = some (.copy, 1, 0, 0x100) := by decide
theorem test_write_overlap :
    after (exec .write ⟨.w64, on .writer .write 0x1001 1 1 (ring 4 1 0x1000 0 0)⟩)
      (fun s => s.body.ghost.faults.bufferOverlap) = some true := by decide
theorem test_getWriteRegions :
    answer .getWriteRegions (on .writer .getWriteRegions 4 0 0 (ring 4 1 0x1000 3 3)) =
      some (0, [4, 0x1003, 1, 0x1000, 3]) := by decide
theorem test_getWriteRegions_one :
    answer .getWriteRegions (on .writer .getWriteRegions 5 0 0 (ring 4 1 0x1000 2 0)) =
      some (0, [2, 0x1002, 2, 0, 0]) := by decide
theorem test_advanceWriteIndex :
    after (exec .advanceWriteIndex ⟨.w64, on .writer .advanceWriteIndex 4 0 0
        ((ring 8 1 0x1000 14 10).setWriteGrant 4 false)⟩)
      (fun s => (response .writer s, s.body.qRA.toNat, s.body.ghost.faults.overcommitWrite)) =
      some ((0, [2, 0, 0, 0, 0]), 8, false) := by decide
theorem test_advanceWriteIndex_overcommit :
    after (exec .advanceWriteIndex ⟨.w64, on .writer .advanceWriteIndex 1 0 0
        (ring 4 1 0x1000 3 1)⟩)
      (fun s => (response .writer s, s.body.ghost.faults.overcommitWrite)) =
      some ((0, [4, 0, 0, 0, 0]), true) := by decide
theorem test_read :
    after (exec .read ⟨.w64, on .reader .read 0x200 10 0 (ring 4 1 0x1000 6 3)⟩)
      (fun s => latches s.body.reader) = some (.copy, 3, 0, 0x200) := by decide
theorem test_read_empty :
    after (exec .read ⟨.w64, on .reader .read 0x200 4 0 (ring 4 1 0x1000 0 0)⟩)
      (fun s => latches s.body.reader) = some (.publish, 0, 0, 0x200) := by decide
theorem test_readInto :
    after (exec .readInto ⟨.w64, on .reader .readInto 0x200 6 0 (ring 4 2 0x1000 3 1)⟩)
      (fun s => latches s.body.reader) = some (.copy, 2, 0, 0x200) := by decide
theorem test_readInto_mismatch :
    answer .readInto (on .reader .readInto 0x200 3 0 (ring 4 2 0x1000 3 1)) =
      some (0x03, [0, 0, 0, 0, 0]) := by decide
theorem test_getReadRegions :
    answer .getReadRegions (on .reader .getReadRegions 8 0 0 (ring 8 2 0x2000 10 6)) =
      some (0, [4, 0x200C, 2, 0x2000, 2]) := by decide
theorem test_getReadRegions_empty :
    answer .getReadRegions (on .reader .getReadRegions 4 0 0 (ring 4 1 0x1000 3 3)) =
      some (0, [0, 0x1003, 0, 0, 0]) := by decide
theorem test_advanceReadIndex :
    answer .advanceReadIndex (on .reader .advanceReadIndex 4 0 0 (ring 8 1 0x1000 10 6)) =
      some (0, [10, 0, 0, 0, 0]) := by decide
theorem test_advanceReadIndex_overcommit :
    after (exec .advanceReadIndex ⟨.w64, on .reader .advanceReadIndex 3 0 0
        ((ring 4 1 0x1000 2 0).setReadGrant 2 false)⟩)
      (fun s => (indices s, s.body.qRA.toNat, s.body.qWA.toNat,
        s.body.ghost.faults.overcommitRead)) = some ((2, 3), 7, 2 ^ 64 - 3, true) := by decide

/-! ### Steps of the port machines and the clients (95, P1 step 4 and P2 steps 5 and 8) -/

/-- The writer machine in the middle of `W.WRITE 0x110, 3, 3` from (3, 2): byte 1 goes to slot 0. -/
def writing (st : Phase) (k : Nat) (sched : List (Move .w64)) : Body .w64 :=
  { put 0x110 [4, 5, 6] (ring 4 1 0x1000 3 2) with
    writer := ⟨st, wd 3, wd k, wd 0x110⟩
    sched := sched }

/-- The reader machine in the middle of `R.READ 0x200, 10` from (6, 3) of 95, 2.9. -/
def reading (st : Phase) (k : Nat) (sched : List (Move .w64)) : Body .w64 :=
  { put 0x1000 [0xC0, 0xC1, 0xC2, 0xC3] (ring 4 1 0x1000 6 3) with
    reader := ⟨st, wd 3, wd k, wd 0x200⟩
    sched := sched }

theorem test_writer_copy :
    after (step ⟨.w64, writing .copy 1 [.machine .writer]⟩)
      (fun s => (bytesAt 0x1000 4 s, s.body.writer.st, s.body.writer.k.toNat)) =
      some ([5, 0, 0, 0], .copy, 2) := by decide
theorem test_writer_last_copy :
    after (step ⟨.w64, writing .copy 2 [.machine .writer]⟩)
      (fun s => (bytesAt 0x1000 4 s, s.body.writer.st)) = some ([0, 6, 0, 0], .publish) := by decide
theorem test_writer_publish :
    after (step ⟨.w64, writing .publish 3 [.machine .writer]⟩)
      (fun s => (indices s, response .writer s, s.body.writer.st)) =
      some ((6, 2), (0, [3, 0, 0, 0, 0]), .idle) := by decide
theorem test_reader_copy :
    after (step ⟨.w64, reading .copy 1 [.machine .reader]⟩)
      (fun s => (bytesAt 0x200 3 s, s.body.reader.k.toNat)) = some ([0, 0xC0, 0], 2) := by decide
theorem test_reader_publish :
    after (step ⟨.w64, reading .publish 3 [.machine .reader]⟩)
      (fun s => (indices s, response .reader s)) = some ((6, 6), (0, [3, 0, 0, 0, 0])) := by decide
theorem test_busy_port_holds :
    after (step ⟨.w64, next .writer .len 0 0 0 [] (writing .copy 1 [])⟩)
      (fun s => (s.body.portW.presented, s.body.portW.status)) = some (true, 0) := by decide
theorem test_store_granted :
    after (step ⟨.w64, { (ring 8 2 0x2000 6 6).setWriteGrant 4 true with
        sched := [.store .writer (wd 0x2003) 0xA7] }⟩)
      (fun s => (bytesAt 0x2003 1 s, s.body.ghost.faults.storageAccess)) =
      some ([0xA7], false) := by decide
theorem test_store_outside_grant :
    after (step ⟨.w64, { (ring 8 2 0x2000 6 6).setWriteGrant 4 true with
        sched := [.store .writer (wd 0x2004) 0xA7] }⟩)
      (fun s => (bytesAt 0x2004 1 s, s.body.ghost.faults.storageAccess)) =
      some ([0xA7], true) := by decide
theorem test_load_granted :
    after (step ⟨.w64, { (put 0x200C [0xA0] (ring 8 2 0x2000 10 6)).setReadGrant 4 true with
        sched := [.load .reader (wd 0x200C)] }⟩)
      (fun s => (s.body.portR.loaded, s.body.ghost.faults.storageAccess)) =
      some (0xA0, false) := by decide
theorem test_reader_store_is_recorded :
    after (step ⟨.w64, { (ring 8 2 0x2000 10 6).setReadGrant 4 true with
        sched := [.store .reader (wd 0x200C) 1] }⟩)
      (fun s => s.body.ghost.faults.storageAccess) = some true := by decide
theorem test_good_run : (ring 8 1 0x1000 5 2).goodRun = true := by decide
theorem test_run_not_ended : ((ring 8 1 0x1000 5 2).setReadGrant 3 true).goodRun = false := by decide

/-! ### Witnesses: a state and operands that meet all hypotheses of an obligation together -/

/-- The invariant of every state, as one decidable proposition. -/
abbrev InvChecks (b : Body .w64) : Prop :=
  memWf .w64 b.mem = true ∧
    (b.constructed = false → b.cap = 0 ∧ b.widx = 0 ∧ b.ridx = 0 ∧ b.bmask = 0 ∧ b.smask = 0 ∧
      b.esz = 0 ∧ b.base = 0 ∧ b.owned = false) ∧
    (b.constructed = true → isPow2 b.cap = true ∧ b.bmask.toNat = 2 * b.cap.toNat - 1 ∧
      b.smask.toNat = b.cap.toNat - 1 ∧ 0 < b.esz.toNat ∧ b.storageBytes < Width.w64.size ∧
      b.widx.toNat = b.ghost.wlog % (2 * b.cap.toNat) ∧
      b.ridx.toNat = b.ghost.rlog % (2 * b.cap.toNat)) ∧
    b.oracle.live.Pairwise (fun x y => rangesApart x y = true) ∧
    (∀ r ∈ b.oracle.live, 0 < r.2 ∧ r.1 + r.2 ≤ Width.w64.size) ∧
    (b.owned = true → (b.base.toNat, b.storageBytes) ∈ b.oracle.live)

theorem inv_of_checks {b : Body .w64} (h : InvChecks b) : b.Inv := by
  obtain ⟨h1, h2, h3, h4, h5, h6⟩ := h
  refine ⟨h1, h2, fun hc => ?_, h4, h5, h6⟩
  obtain ⟨k1, k2, k3, k4, k5, k6, k7⟩ := h3 hc
  exact ⟨k1, k2, k3, k4, k5, k6, k7⟩

/-- A busy machine's share, as one decidable proposition. -/
abbrev BusyChecks (m : PortMachine .w64) (b : Body .w64) (avail grant : Nat) (zc : Bool) : Prop :=
  b.constructed = true ∧ m.n.toNat ≤ avail ∧ grant = 0 ∧ zc = false ∧
    b.badBuffer m.buf (m.n.toNat * b.esz.toNat) = false ∧
    (m.st = .copy → m.k.toNat < m.n.toNat * b.esz.toNat) ∧
    (m.st = .publish → m.k.toNat = m.n.toNat * b.esz.toNat)

theorem busy_of_checks {m : PortMachine .w64} {b : Body .w64} {avail grant : Nat} {zc : Bool}
    (h : BusyChecks m b avail grant zc) : m.Busy b avail grant zc := by
  obtain ⟨h1, h2, h3, h4, h5, h6, h7⟩ := h
  exact ⟨h1, h2, h3, h4, h5, h6, h7⟩

/-- The contract invariant, as one decidable proposition. -/
abbrev CleanChecks (b : Body .w64) : Prop :=
  (b.constructed = true → b.ghost.rlog ≤ b.ghost.wlog ∧ b.filled ≤ b.cap.toNat) ∧
    (b.constructed = true →
      b.ghost.wgrant ≤ b.cap.toNat - b.filled ∧ b.ghost.rgrant ≤ b.filled) ∧
    (b.constructed = true → b.base.toNat + b.storageBytes ≤ Width.w64.size) ∧
    (b.writer.st ≠ .idle →
      BusyChecks b.writer b (b.cap.toNat - b.filled) b.ghost.wgrant b.ghost.wzc) ∧
    (b.reader.st ≠ .idle → BusyChecks b.reader b b.filled b.ghost.rgrant b.ghost.rzc)

theorem clean_of_checks {b : Body .w64} (h : CleanChecks b) : b.Clean := by
  obtain ⟨h1, h2, h3, h4, h5⟩ := h
  exact ⟨h1, h2, h3, fun hb => busy_of_checks (h4 hb), fun hb => busy_of_checks (h5 hb)⟩

theorem sound_of_checks {b : Body .w64} (hi : InvChecks b) (hc : CleanChecks b) : b.Sound :=
  ⟨inv_of_checks hi, fun _ => clean_of_checks hc⟩

/-- A step of the schedule is always answered. -/
theorem stepped_of (b : Body .w64) : step ⟨.w64, b⟩ = .next ⟨.w64, b.stepped⟩ := step_eq b

theorem witness_IllegalWordsAnswerIllegalCommand :
    let b := nextWord .writer 0x111#32 (blank [])
    b.sched = [.accept .writer] ∧ (b.port .writer).presented = true ∧
      MachineIdle b .writer ∧ decode (b.port .writer).lines.word = .error .reservedBits :=
  ⟨rfl, rfl, by decide, rfl⟩

theorem witness_IllegalWords_unusedOpcode :
    let b := nextWord .control 0x25#32 (blank [])
    b.sched = [.accept .control] ∧ (b.port .control).presented = true ∧
      MachineIdle b .control ∧ decode (b.port .control).lines.word = .error .unusedOpcode :=
  ⟨rfl, rfl, by decide, rfl⟩

theorem witness_EncodedLineCarriesItsOperands :
    Line.encodable .w64 ⟨.writer, .write, [2 ^ 64 - 1, 0, 1]⟩ = true := by decide

theorem witness_PseudoInstructionsExpand :
    (5 < Width.w64.size ∧ 2 ^ 64 - 1 < Width.w64.size ∧ 2 ^ 63 < Width.w64.size) ∧
      2 ^ 63 * 1 < Width.w64.size ∧ Width.w64.size ≤ 2 ^ 63 * 2 := by decide

theorem witness_StepRunsTheDecodedCommand :
    let b := next .writer .write 0x110 3 3 [] (ring 4 1 0x1000 3 2)
    b.sched = [.accept .writer] ∧ (b.port .writer).presented = true ∧
      MachineIdle b .writer ∧ decode (b.port .writer).lines.word = .ok .write :=
  ⟨rfl, rfl, by decide, rfl⟩

theorem witness_BusyPortHoldsTheCommand :
    (let b := next .writer .len 0 0 0 [] (writing .copy 1 [])
     b.sched = [.accept .writer] ∧ ¬ MachineIdle b .writer) ∧
    (let b := { ring 4 1 0x1000 3 2 with sched := [.present .writer ⟨encode .len, 0, 0, 0⟩] }
     b.sched = [.present .writer ⟨encode .len, 0, 0, 0⟩] ∧
      (b.port .writer).presented = false) := by decide

theorem witness_UnusedOperandLinesAreIgnored :
    let b := on .writer .len 0 0 0 (ring 4 1 0x1000 3 2)
    exec .len ⟨.w64, b⟩ = .next ⟨.w64, b.effect .len⟩ := exec_eq _ _

/-- One state for every status a legal word can fail with. -/
theorem witness_FirstFailingCheckIsReported :
    (on .control .write 0 0 0 (blank [])).firstFailure .write = some .wrongPort ∧
      (on .control .new 0 3 0 (ring 8 4 0x3000 0 0)).firstFailure .new =
        some .alreadyConstructed ∧
      (on .control .readAvailable 0 0 0 (blank [])).firstFailure .readAvailable =
        some .notConstructed ∧
      (on .control .new 0 3 0 (blank [])).firstFailure .new = some .invalidElementSize ∧
      (on .control .newWithStorage 4 0x3000 6 (blank [])).firstFailure .newWithStorage =
        some .sizeMismatch ∧
      (on .control .newWithStorage 4 0x3000 0 (blank [])).firstFailure .newWithStorage =
        some .invalidCapacity ∧
      (on .control .new 2 (2 ^ 63) 0 (blank [])).firstFailure .new = some .allocFailed ∧
      (on .control .new 1 4 0 (blank [.refuse])).firstFailure .new = some .allocFailed ∧
      (on .writer .write 0x100 8 3 (ring 8 4 0x3000 0 0)).firstFailure .write =
        some .dataSizeMismatch ∧
      (on .reader .readInto 0x200 6 0 (ring 8 4 0x3000 0 0)).firstFailure .readInto =
        some .dataSizeMismatch ∧
      (on .control .readReg 7 0 0 (ring 8 4 0x3000 0 0)).firstFailure .readReg =
        some .invalidRegister := by decide

theorem witness_WrongPortIsReportedFirst :
    (on .reader .write 0x100 4 1 (ring 8 4 0x3000 0 0)).active ∉ tablePorts .write := by decide

theorem witness_UnconstructedBlockAnswersNotConstructed :
    let b := on .writer .writeAvailable 0 0 0 (blank [])
    b.constructed = false ∧ Instr.writeAvailable ≠ .new ∧
      Instr.writeAvailable ≠ .newWithStorage ∧ b.active ∈ Instr.writeAvailable.ports := by decide

theorem witness_NewConstructsWithGrantedStorage :
    let b := on .control .new 1 (2 ^ 63) 0 (blank [.grant (wd 0x10) [0xAB]])
    b.active = .control ∧ b.constructed = false ∧ memWf .w64 b.mem = true ∧ b.opa ≠ 0 ∧
      isPow2 b.opb = true ∧ b.opb.toNat * b.opa.toNat < Width.w64.size ∧
      b.oracle.answers = [.grant (wd 0x10) [0xAB]] ∧
      (wd 0x10).toNat + b.opb.toNat * b.opa.toNat ≤ Width.w64.size ∧
      (∀ r ∈ b.oracle.live, (wd 0x10).toNat + b.opb.toNat * b.opa.toNat ≤ r.1 ∨
        r.1 + r.2 ≤ (wd 0x10).toNat) := by decide

/-- A grant right behind a region that is out. -/
theorem witness_NewConstructsWithGrantedStorage_beside :
    let b := on .control .new 1 4 0 (blank [.grant (wd 0x10) []])
    let b := { b with oracle := { b.oracle with live := [(0xC, 4)] } }
    ∀ r ∈ b.oracle.live, (wd 0x10).toNat + b.opb.toNat * b.opa.toNat ≤ r.1 ∨
      r.1 + r.2 ≤ (wd 0x10).toNat := by decide

theorem witness_NewWithStorageAdoptsTheRegion :
    let b := on .control .newWithStorage 3 0x3000 12 (blank [])
    b.active = .control ∧ b.constructed = false ∧ b.opa ≠ 0 ∧ isPow2 (wd 4) = true ∧
      b.opc.toNat = (wd 4).toNat * b.opa.toNat := by decide

/-- A region that wraps, and one that ends at the top of memory. -/
theorem witness_NewWithStorage_wraps :
    (let b := on .control .newWithStorage 1 (2 ^ 64 - 2) 4 (blank [])
     isPow2 (wd 4) = true ∧ b.opc.toNat = (wd 4).toNat * b.opa.toNat ∧
      Width.w64.size < b.opb.toNat + b.opc.toNat) ∧
    (let b := on .control .newWithStorage 1 (2 ^ 64 - 4) 4 (blank [])
     b.opc.toNat = (wd 4).toNat * b.opa.toNat ∧
      b.opb.toNat + b.opc.toNat = Width.w64.size) := by decide

theorem witness_ConstructionLeavesTheBufferEmpty :
    let b := on .control .new 1 8 0 (blank [.grant (wd 0x1000) []])
    exec .new ⟨.w64, b⟩ = .next ⟨.w64, b.effect .new⟩ ∧
      ((b.effect .new).port b.active).status = 0x00 := ⟨exec_eq _ _, by decide⟩

/-- The block of the vectors' wrapping WRITE and READ: a configured one with both invariants. -/
theorem ring_sound : (ring 4 1 0x1000 3 2).Sound := sound_of_checks (by decide) (by decide)

theorem witness_SlotIsTheIndexModuloCapacity : (ring 4 1 0x1000 3 2).Configured :=
  ring_sound.inv.constructed rfl

/-- The least and the greatest capacity. -/
theorem witness_IndexAdvanceIsModuloTwiceCapacity :
    (ring 1 1 0x1000 1 0).Configured ∧ (ring (2 ^ 63) 1 0x1000 0 0).Configured :=
  ⟨(inv_of_checks (by decide)).constructed rfl, (inv_of_checks (by decide)).constructed rfl⟩

theorem witness_SplitCoversTheSlotsInOrder :
    (ring 4 1 0x1000 3 2).Configured ∧ (wd 4).toNat ≤ (ring 4 1 0x1000 3 2).cap.toNat :=
  ⟨ring_sound.inv.constructed rfl, by decide⟩

/-- A byte of the first span and one of the second. -/
theorem witness_TransferAddressesFollowTheSpans :
    let b := ring 8 2 0x2000 6 6
    b.Configured ∧ (wd 4).toNat ≤ b.cap.toNat ∧ (wd 3).toNat < (wd 4).toNat * b.esz.toNat ∧
      (wd 3).toNat < (b.split (wd 6) (wd 4)).1.2.toNat * b.esz.toNat ∧
      (wd 4).toNat < (wd 4).toNat * b.esz.toNat ∧
      ¬ (wd 4).toNat < (b.split (wd 6) (wd 4)).1.2.toNat * b.esz.toNat :=
  ⟨(inv_of_checks (by decide)).constructed rfl, by decide⟩

theorem witness_QueryUnitMeasuresTheLogicalIndices :
    let b := ring 4 1 0x1000 6 2
    b.Sound ∧ b.ghost.faults = .empty ∧ b.constructed = true :=
  ⟨sound_of_checks (by decide) (by decide), rfl, rfl⟩

/-- An overcommitted block, where the sum wraps, and a full one, where it is exact. -/
theorem witness_QueryOutputsAddUpToCapacity :
    (let b := { ring 4 1 0x1000 5 0 with
        ghost := { Ghost.reset with wlog := 5, faults := FaultSet.empty.add .overcommitWrite } }
     b.Sound ∧ ¬ b.qRA.toNat ≤ b.cap.toNat) ∧
    (let b := ring 4 1 0x1000 6 2
     b.Sound ∧ b.qRA.toNat ≤ b.cap.toNat ∧ b.ghost.faults = .empty) :=
  ⟨⟨⟨inv_of_checks (by decide), fun h => by cases h⟩, by decide⟩, sound_of_checks (by decide) (by decide),
    by decide⟩

theorem witness_EmptyAndFullAreToldApart :
    (let b := ring 1 1 0x1000 1 1
     b.Inv ∧ b.constructed = true ∧ b.qEmpty = true) ∧
    (let b := ring 1 1 0x1000 2 1
     b.Inv ∧ b.constructed = true ∧ b.qFull = true) :=
  ⟨⟨inv_of_checks (by decide), rfl, by decide⟩, inv_of_checks (by decide), rfl, by decide⟩

theorem witness_UnconstructedQueryOutputsAreZero :
    (on .reader .len 0 0 0 (blank [])).constructed = false := rfl

/-- LEN, ELEMENT_SIZE, WRITE_AVAILABLE and READ_AVAILABLE need no more than this. -/
theorem witness_LenAndElementSizeAnswerTheConfiguration :
    (on .reader .len 0 0 0 (ring 8 4 0x3000 0 0)).constructed = true := rfl

theorem witness_WriteAvailableAnswersFreeElements :
    let b := on .writer .writeAvailable 0 0 0 (ring 8 1 0x1000 5 0)
    b.constructed = true ∧ b.active = .writer := by decide

theorem witness_ReadAvailableAnswersFilledElements :
    let b := on .reader .readAvailable 0 0 0 (ring 8 1 0x1000 5 0)
    b.constructed = true ∧ b.active = .reader := by decide

theorem witness_WriteAcceptLoadsTheWriterMachine :
    let b := on .writer .write 0x100 4 2 (ring 4 2 0x1000 0 0)
    b.active = .writer ∧ b.constructed = true ∧ b.esz ≠ 0 ∧ b.opb.toNat % b.esz.toNat = 0 ∧
      b.opc.toNat ≤ b.opb.toNat / b.esz.toNat := by decide

theorem witness_ReadAcceptLoadsTheReaderMachine :
    let b := on .reader .read 0x200 10 0 (ring 4 1 0x1000 6 3)
    b.active = .reader ∧ b.constructed = true := by decide

theorem witness_ReadIntoAcceptTakesWholeElements :
    let b := on .reader .readInto 0x200 6 0 (ring 4 2 0x1000 3 1)
    b.active = .reader ∧ b.constructed = true ∧ b.esz ≠ 0 ∧
      b.opb.toNat % b.esz.toNat = 0 := by decide

/-- A buffer just below the storage, one that takes in its first byte, and one that wraps. -/
theorem witness_BadBuffersWrapOrMeetTheStorage :
    let b := ring 4 1 0x1000 0 0
    2 < Width.w64.size ∧ b.storageBytes < Width.w64.size ∧ b.badBuffer (wd 0x1000) 0 = false ∧
      b.badBuffer (wd 0xFFF) 1 = false ∧ b.badBuffer (wd 0xFFF) 2 = true ∧
      b.badBuffer (wd (2 ^ 64 - 1)) 1 = false ∧ b.badBuffer (wd (2 ^ 64 - 1)) 2 = true := by decide

theorem writing_sound : (writing .copy 1 [.machine .writer]).Sound := sound_of_checks (by decide) (by decide)

theorem reading_sound : (reading .copy 1 [.machine .reader]).Sound := sound_of_checks (by decide) (by decide)

theorem witness_WriterCopyStepMovesOneByte :
    let b := writing .copy 1 [.machine .writer]
    b.Inv ∧ b.constructed = true ∧ b.sched = [.machine .writer] ∧ b.writer.st = .copy :=
  ⟨writing_sound.inv, rfl, rfl, rfl⟩

theorem witness_ReaderCopyStepMovesOneByte :
    let b := reading .copy 1 [.machine .reader]
    b.Inv ∧ b.constructed = true ∧ b.sched = [.machine .reader] ∧ b.reader.st = .copy :=
  ⟨reading_sound.inv, rfl, rfl, rfl⟩

theorem witness_PublishStepAdvancesItsOwnIndex :
    (let b := writing .publish 3 [.machine .writer]
     b.Inv ∧ b.constructed = true ∧ b.sched = [.machine .writer] ∧ b.writer.st = .publish) ∧
    (let b := reading .publish 3 [.machine .reader]
     b.Inv ∧ b.constructed = true ∧ b.sched = [.machine .reader] ∧ b.reader.st = .publish) :=
  ⟨⟨inv_of_checks (by decide), rfl, rfl, rfl⟩, inv_of_checks (by decide), rfl, rfl, rfl⟩

theorem witness_UninterruptedWriteCopiesItsData :
    let b := next .writer .write 0x110 3 3 (List.replicate 4 (.machine .writer))
      (put 0x110 [4, 5, 6] (ring 4 1 0x1000 3 2))
    b.Sound ∧ b.ghost.faults = .empty ∧ b.constructed = true ∧ b.portW.presented = true ∧
      b.portW.lines.word = encode .write ∧ b.writer.st = .idle ∧
      b.portW.lines.opb.toNat % b.esz.toNat = 0 ∧
      b.portW.lines.opc.toNat ≤ b.portW.lines.opb.toNat / b.esz.toNat ∧
      3 = min b.portW.lines.opc.toNat (b.cap.toNat - b.filled) ∧
      b.badBuffer b.portW.lines.opa (3 * b.esz.toNat) = false ∧
      b.sched = .accept .writer :: List.replicate (3 * b.esz.toNat + 1) (.machine .writer) :=
  ⟨sound_of_checks (by decide) (by decide), by decide⟩

theorem witness_UninterruptedReadDeliversTheOldestElements :
    let b := next .reader .read 0x210 4 0 (List.replicate 5 (.machine .reader))
      (put 0x1000 [5, 6, 3, 4] (ring 4 1 0x1000 6 2))
    b.Sound ∧ b.ghost.faults = .empty ∧ b.constructed = true ∧ b.portR.presented = true ∧
      b.portR.lines.word = encode .read ∧ b.reader.st = .idle ∧
      4 = min b.portR.lines.opb.toNat b.filled ∧
      b.badBuffer b.portR.lines.opa (4 * b.esz.toNat) = false ∧
      b.sched = .accept .reader :: List.replicate (4 * b.esz.toNat + 1) (.machine .reader) :=
  ⟨sound_of_checks (by decide) (by decide), by decide⟩

theorem witness_GetWriteRegionsReportsFreeSlots :
    let b := on .writer .getWriteRegions 4 0 0 (ring 8 2 0x2000 6 6)
    b.Inv ∧ b.active = .writer ∧ b.constructed = true := ⟨inv_of_checks (by decide), rfl, rfl⟩

theorem witness_GetReadRegionsReportsFilledSlots :
    let b := on .reader .getReadRegions 8 0 0 (ring 8 2 0x2000 10 6)
    b.Inv ∧ b.active = .reader ∧ b.constructed = true := ⟨inv_of_checks (by decide), rfl, rfl⟩

/-- An advance within the grant, and one past it. -/
theorem witness_AdvanceWriteIndexPublishesUnchecked :
    (let b := on .writer .advanceWriteIndex 4 0 0 ((ring 8 1 0x1000 14 10).setWriteGrant 4 true)
     b.Inv ∧ b.active = .writer ∧ b.constructed = true ∧ b.opa.toNat ≤ b.ghost.wgrant) ∧
    (let b := on .writer .advanceWriteIndex 1 0 0 (ring 4 1 0x1000 3 1)
     b.Inv ∧ b.active = .writer ∧ b.constructed = true ∧ b.ghost.wgrant < b.opa.toNat) :=
  ⟨⟨inv_of_checks (by decide), by decide⟩, inv_of_checks (by decide), by decide⟩

theorem witness_AdvanceReadIndexPublishesUnchecked :
    (let b := on .reader .advanceReadIndex 4 0 0 ((ring 8 1 0x1000 10 6).setReadGrant 4 true)
     b.Inv ∧ b.active = .reader ∧ b.constructed = true ∧ b.opa.toNat ≤ b.ghost.rgrant) ∧
    (let b := on .reader .advanceReadIndex 3 0 0 ((ring 4 1 0x1000 2 0).setReadGrant 2 false)
     b.Inv ∧ b.active = .reader ∧ b.constructed = true ∧ b.ghost.rgrant < b.opa.toNat) :=
  ⟨⟨inv_of_checks (by decide), by decide⟩, inv_of_checks (by decide), by decide⟩

theorem witness_FlushZeroesBothIndices :
    let b := on .control .flush 0 0 0 (writing .copy 1 [])
    b.active = .control ∧ b.constructed = true ∧ b.writer.st ≠ .idle := by decide

theorem witness_FlushTwiceIsFlushOnce :
    let b := on .control .flush 0 0 0 (ring 8 1 0x1000 5 5)
    exec .flush ⟨.w64, b⟩ = .next ⟨.w64, b.effect .flush⟩ := exec_eq _ _

/-- Owned storage, and borrowed storage. -/
theorem witness_DestroyReleasesOwnedStorageOnly :
    (let b := on .control .destroy 0 0 0 { ring 8 2 0x1000 0 0 with
        owned := true, oracle := ⟨[], [(0x1000, 16)]⟩ }
     b.active = .control ∧ b.constructed = true ∧ b.owned = true) ∧
    (let b := on .control .destroy 0 0 0 (ring 8 4 0x3000 0 0)
     b.active = .control ∧ b.constructed = true ∧ b.owned = false) := by decide

/-- The last register, and the first offset that names none. -/
theorem witness_ReadRegAnswersTheRawLayout :
    (let b := on .control .readReg 6 0 0 (ring 4 1 0x1000 0 0)
     b.active = .control ∧ b.constructed = true ∧ ¬ 7 ≤ b.opa.toNat) ∧
    (let b := on .control .readReg 7 0 0 (ring 4 1 0x1000 0 0)
     b.active = .control ∧ b.constructed = true ∧ 7 ≤ b.opa.toNat) := by decide

theorem witness_RawLayoutExportsSevenWords :
    (ring 4 1 0x1000 0 0).layoutWord 6 = some (wd 0x1000) ∧ 7 < Width.w64.bits / 8 := by decide

theorem witness_GrantedSlotsAreThoseOfTheGrantedElements :
    3 < 4 ∧ slotGranted 4 3 2 3 = true ∧ slotGranted 4 3 2 0 = true ∧
      slotGranted 4 3 2 1 = false := by decide

theorem witness_ReportedRegionsAreTheGrantedBytes :
    (let b := on .writer .getWriteRegions 4 0 0 (ring 8 2 0x2000 6 6)
     b.Inv ∧ b.constructed = true ∧ b.active = .writer ∧
      (wd 0x200F - b.base).toNat < b.cap.toNat * b.esz.toNat) ∧
    (let b := on .reader .getReadRegions 8 0 0 (ring 8 2 0x2000 10 6)
     b.Inv ∧ b.constructed = true ∧ b.active = .reader ∧
      (wd 0x2000 - b.base).toNat < b.cap.toNat * b.esz.toNat) :=
  ⟨⟨inv_of_checks (by decide), by decide⟩, inv_of_checks (by decide), by decide⟩

/-- A load within the rights; a store outside them, at the last byte of the storage. -/
theorem witness_ClientAccessesHappenAndAreChecked :
    (let b := { (ring 8 2 0x2000 10 6).setReadGrant 4 true with
        sched := [.load .reader (wd 0x200C)] }
     b.Inv ∧ b.sched = [.load .reader (wd 0x200C)] ∧
      b.mayAccess .reader false (wd 0x200C) = true) ∧
    (let b := { (ring 8 2 0x2000 6 6).setWriteGrant 1 true with
        sched := [.store .writer (wd 0x200F) 0xA3] }
     b.Inv ∧ b.sched = [.store .writer (wd 0x200F) 0xA3] ∧
      b.inStorage (wd 0x200F) = true ∧ b.mayAccess .writer true (wd 0x200F) = false) :=
  ⟨⟨inv_of_checks (by decide), by decide⟩, inv_of_checks (by decide), by decide⟩

theorem witness_ResetLeavesTheBlockUnconstructed :
    Instr.len ≠ .new ∧ Instr.len ≠ .newWithStorage ∧ PortId.reader ∈ Instr.len.ports := by decide

theorem witness_ResetMeetsTheInvariant : memWf .w64 [(0x100, 1), (0x101, 2)] = true := by decide

theorem witness_StepKeepsTheInvariant :
    let b := writing .copy 1 [.machine .writer]
    b.Inv ∧ step ⟨.w64, b⟩ = .next ⟨.w64, b.stepped⟩ := ⟨writing_sound.inv, stepped_of _⟩

theorem witness_StepKeepsTheContractInvariant :
    let b := reading .copy 1 [.machine .reader]
    b.Sound ∧ step ⟨.w64, b⟩ = .next ⟨.w64, b.stepped⟩ ∧ b.stepped.ghost.faults = .empty :=
  ⟨reading_sound, stepped_of _, by decide⟩

theorem witness_FaultsAreSticky :
    let b := next .control .flush 0 0 0 [] { ring 4 1 0x1000 5 0 with
      ghost := { Ghost.reset with wlog := 5, faults := FaultSet.empty.add .overcommitWrite } }
    step ⟨.w64, b⟩ = .next ⟨.w64, b.stepped⟩ ∧ b.ghost.faults.has .overcommitWrite = true :=
  ⟨stepped_of _, rfl⟩

theorem witness_ConfigurationIsConstantWhileConstructed :
    let b := next .control .flush 0 0 0 [] (ring 8 1 0x1000 5 2)
    step ⟨.w64, b⟩ = .next ⟨.w64, b.stepped⟩ ∧ b.constructed = true ∧
      b.stepped.constructed = true := ⟨stepped_of _, rfl, by decide⟩

/-- A publish, an advance and a FLUSH move the write index; their mirrors move the read index. -/
theorem witness_OnlyTheirWritersMoveTheIndices :
    (writing .publish 3 [.machine .writer]).stepped.widx ≠
        (writing .publish 3 [.machine .writer]).widx ∧
      (next .writer .advanceWriteIndex 1 0 0 [] (ring 4 1 0x1000 3 1)).stepped.widx ≠
        (ring 4 1 0x1000 3 1).widx ∧
      (next .control .flush 0 0 0 [] (ring 8 1 0x1000 5 2)).stepped.widx ≠
        (ring 8 1 0x1000 5 2).widx ∧
      (reading .publish 3 [.machine .reader]).stepped.ridx ≠
        (reading .publish 3 [.machine .reader]).ridx ∧
      (next .reader .advanceReadIndex 1 0 0 [] (ring 4 1 0x1000 3 1)).stepped.ridx ≠
        (ring 4 1 0x1000 3 1).ridx := by decide

/-- A byte changed by each of the four kinds of step. -/
theorem witness_MemoryChangesOnlyInCopiesStoresAndGrants :
    memRead (writing .copy 1 [.machine .writer]).stepped.mem 0x1000 ≠
        memRead (writing .copy 1 [.machine .writer]).mem 0x1000 ∧
      memRead (reading .copy 1 [.machine .reader]).stepped.mem 0x201 ≠
        memRead (reading .copy 1 [.machine .reader]).mem 0x201 ∧
      memRead ({ ring 8 2 0x2000 6 6 with
        sched := [.store .writer (wd 0x50) 1] } : Body .w64).stepped.mem 0x50 ≠ 0 ∧
      memRead (next .control .new 1 8 0 [] (blank [.grant (wd 0x1000) [7]])).stepped.mem 0x1000 ≠
        memRead (blank [.grant (wd 0x1000) [7]]).mem 0x1000 := by decide

theorem witness_GhostStateNeverReachesTheHardware :
    let b := next .writer .getWriteRegions 3 0 0 [] (ring 4 1 0x1000 3 2)
    let c := b.setWriteGrant 1 true
    b.hardware = c.hardware ∧ b ≠ c ∧ step ⟨.w64, b⟩ = .next ⟨.w64, b.stepped⟩ ∧
      step ⟨.w64, c⟩ = .next ⟨.w64, c.stepped⟩ :=
  ⟨rfl, by decide, stepped_of _, stepped_of _⟩

theorem witness_WriterCopiesLeaveReadableElements :
    let b := writing .copy 1 [.machine .writer]
    b.Sound ∧ b.ghost.faults = .empty ∧ b.sched = [.machine .writer] ∧ b.writer.st = .copy ∧
      step ⟨.w64, b⟩ = .next ⟨.w64, b.stepped⟩ ∧ b.ghost.rlog ≤ 2 ∧ 2 < b.ghost.wlog ∧
      0 < b.esz.toNat := ⟨writing_sound, rfl, rfl, rfl, stepped_of _, by decide⟩

/-- A publish of either side. -/
theorem witness_AvailabilityShrinksOnlyByItsOwnSide :
    (let b := reading .publish 3 [.machine .reader]
     b.Sound ∧ step ⟨.w64, b⟩ = .next ⟨.w64, b.stepped⟩ ∧ b.stepped.ghost.faults = .empty ∧
      b.constructed = true ∧ b.stepped.constructed = true ∧
      b.sched.head? ≠ some (.machine .writer) ∧ b.sched.head? ≠ some (.accept .writer)) ∧
    (let b := writing .publish 3 [.machine .writer]
     b.Sound ∧ step ⟨.w64, b⟩ = .next ⟨.w64, b.stepped⟩ ∧ b.stepped.ghost.faults = .empty ∧
      b.constructed = true ∧ b.stepped.constructed = true ∧
      b.sched.head? ≠ some (.machine .reader) ∧ b.sched.head? ≠ some (.accept .reader) ∧
      b.sched.head? ≠ some (.accept .control)) :=
  ⟨⟨sound_of_checks (by decide) (by decide), stepped_of _, by decide⟩, sound_of_checks (by decide) (by decide),
    stepped_of _, by decide⟩

/-- A step that appends, one that takes away, and one that empties. -/
theorem witness_EveryStepIsAStepOfAQueue :
    (let b := writing .publish 3 [.machine .writer]
     b.Sound ∧ step ⟨.w64, b⟩ = .next ⟨.w64, b.stepped⟩ ∧ b.stepped.ghost.faults = .empty ∧
      b.contents.length = 1 ∧ b.stepped.contents.length = 4) ∧
    (let b := reading .publish 3 [.machine .reader]
     b.Sound ∧ step ⟨.w64, b⟩ = .next ⟨.w64, b.stepped⟩ ∧ b.stepped.ghost.faults = .empty ∧
      b.contents = [0xC3, 0xC0, 0xC1] ∧ b.stepped.contents = []) ∧
    (let b := next .control .flush 0 0 0 [] (ring 8 1 0x1000 5 2)
     b.Sound ∧ step ⟨.w64, b⟩ = .next ⟨.w64, b.stepped⟩ ∧ b.stepped.ghost.faults = .empty ∧
      b.contents.length = 3 ∧ b.stepped.contents = []) :=
  ⟨⟨sound_of_checks (by decide) (by decide), stepped_of _, by decide⟩,
    ⟨sound_of_checks (by decide) (by decide), stepped_of _, by decide⟩,
    sound_of_checks (by decide) (by decide), stepped_of _, by decide⟩

end Sys2Proof.Tests
end

section
/-! Ghost state is never an input to hardware (R14, R288): every operation of the model commutes with
forgetting the ghost state. A response, a memory write and a port update carry `Body.hardware` inward
(`hardware_<operation>`). A rule that writes ghost items gives the same hardware whether or not the ghost
state was forgotten before it (`<rule>_hardware`), with the inner `Body.hardware` on the left, so that
`simp` takes it away. -/

namespace Sys2Proof.Machine

variable {w : Width} (b : Body w)

/-! ### What the machine without ghost state still shows -/

@[simp] theorem Body.hardware_hardware : b.hardware.hardware = b.hardware := rfl
@[simp] theorem Body.hardware_cap : b.hardware.cap = b.cap := rfl
@[simp] theorem Body.hardware_widx : b.hardware.widx = b.widx := rfl
@[simp] theorem Body.hardware_ridx : b.hardware.ridx = b.ridx := rfl
@[simp] theorem Body.hardware_esz : b.hardware.esz = b.esz := rfl
@[simp] theorem Body.hardware_constructed : b.hardware.constructed = b.constructed := rfl
@[simp] theorem Body.hardware_active : b.hardware.active = b.active := rfl
@[simp] theorem Body.hardware_oracle : b.hardware.oracle = b.oracle := rfl
@[simp] theorem Body.hardware_writer : b.hardware.writer = b.writer := rfl
@[simp] theorem Body.hardware_reader : b.hardware.reader = b.reader := rfl
@[simp] theorem Body.hardware_port (p : PortId) : b.hardware.port p = b.port p := by cases p <;> rfl
@[simp] theorem Body.hardware_ready (p : PortId) : b.hardware.ready p = b.ready p := by
  cases p <;> rfl
@[simp] theorem Body.hardware_byteAt (a : Word w) : b.hardware.byteAt a = b.byteAt a := rfl
@[simp] theorem Body.hardware_opa : b.hardware.opa = b.opa := by simp [Body.opa]
@[simp] theorem Body.hardware_opb : b.hardware.opb = b.opb := by simp [Body.opb]
@[simp] theorem Body.hardware_opc : b.hardware.opc = b.opc := by simp [Body.opc]
@[simp] theorem Body.hardware_qRA : b.hardware.qRA = b.qRA := rfl
@[simp] theorem Body.hardware_qWA : b.hardware.qWA = b.qWA := rfl
@[simp] theorem Body.hardware_clamp (count avail : Word w) :
    b.hardware.clamp count avail = b.clamp count avail := rfl
@[simp] theorem Body.hardware_layoutWord (k : Nat) : b.hardware.layoutWord k = b.layoutWord k := rfl

/-! ### Shared operations -/

@[simp] theorem Body.hardware_setPort (p : PortId) (q : Port w) :
    (b.setPort p q).hardware = b.hardware.setPort p q := by cases p <;> rfl

@[simp] theorem Body.hardware_respondOn (p : PortId) (st : Status) (r0 r1 r2 r3 r4 : Word w) :
    (b.respondOn p st r0 r1 r2 r3 r4).hardware = b.hardware.respondOn p st r0 r1 r2 r3 r4 := by
  simp [Body.respondOn]

@[simp] theorem Body.hardware_ok (r0 : Word w) : (b.ok r0).hardware = b.hardware.ok r0 :=
  b.hardware_respondOn ..

@[simp] theorem Body.hardware_raise (st : Status) : (b.raise st).hardware = b.hardware.raise st :=
  b.hardware_respondOn ..

@[simp] theorem Body.hardware_putByte (a : Word w) (v : Byte) :
    (b.putByte a v).hardware = b.hardware.putByte a v := rfl

@[simp] theorem Body.hardware_recordIf (c : Bool) (x : MFault) :
    (b.recordIf c x).hardware = b.hardware := rfl

@[simp] theorem Body.hardware_setWriteGrant (n : Nat) (z : Bool) :
    (b.setWriteGrant n z).hardware = b.hardware := rfl

@[simp] theorem Body.hardware_setReadGrant (n : Nat) (z : Bool) :
    (b.setReadGrant n z).hardware = b.hardware := rfl

@[simp] theorem Body.hardware_command (i : Instr) (rule : Body w) :
    (b.command i rule).hardware = b.hardware.command i rule.hardware := by
  rw [Body.command, apply_ite Body.hardware, hardware_raise]
  rfl

@[simp] theorem Body.hardware_constructedCommand (i : Instr) (rule : Body w) :
    (b.constructedCommand i rule).hardware = b.hardware.constructedCommand i rule.hardware := by
  rw [Body.constructedCommand, hardware_command, apply_ite Body.hardware, hardware_raise]
  rfl

/-- The oracle does not see the ghost state, and its answer leaves it as it was. -/
@[simp] theorem Body.allocRequest_hardware (n : Nat) :
    b.hardware.allocRequest n = ((b.allocRequest n).1.hardware, (b.allocRequest n).2) := by
  unfold Body.allocRequest
  rw [hardware_oracle]
  rcases b.oracle.answers with _ | ⟨_ | ⟨base, bytes⟩, rest⟩
  · rfl
  · rfl
  · dsimp only
    split_ifs <;> rfl

/-! ### The commands' rules -/

@[simp] theorem Body.construct_hardware (esz c base : Word w) (owned : Bool) :
    (b.hardware.construct esz c base owned).hardware = (b.construct esz c base owned).hardware := rfl

/-- A fault recorded before a construction is not seen in it. -/
@[simp] theorem Body.construct_recordIf_hardware (x : MFault) (d : Bool) (esz c base : Word w)
    (owned : Bool) : ((b.recordIf d x).construct esz c base owned).hardware =
      (b.construct esz c base owned).hardware := rfl

@[simp] theorem Body.newGranted_hardware (esz c : Word w) (r : Body w × Option (Word w)) :
    (Body.newGranted esz c (r.1.hardware, r.2)).hardware = (Body.newGranted esz c r).hardware := by
  obtain ⟨b, _ | base⟩ := r <;> simp [Body.newGranted]

@[simp] theorem Body.new_hardware (esz c : Word w) :
    (b.hardware.new esz c).hardware = (b.new esz c).hardware := by
  unfold Body.new
  rw [hardware_constructed]
  split_ifs <;> simp

@[simp] theorem Body.newWithStorage_hardware (esz addr nbytes : Word w) :
    (b.hardware.newWithStorage esz addr nbytes).hardware =
      (b.newWithStorage esz addr nbytes).hardware := by
  unfold Body.newWithStorage
  rw [hardware_constructed]
  split_ifs <;> simp

@[simp] theorem Body.flush_hardware : b.hardware.flush.hardware = b.flush.hardware := by
  simp only [Body.flush, hardware_ok]
  rfl

@[simp] theorem Body.hardware_releaseStorage :
    b.releaseStorage.hardware = b.hardware.releaseStorage := apply_ite Body.hardware ..

@[simp] theorem Body.unconstruct_hardware :
    b.hardware.unconstruct.hardware = b.unconstruct.hardware := rfl

@[simp] theorem Body.destroy_hardware : b.hardware.destroy.hardware = b.destroy.hardware := by
  rw [Body.destroy, Body.destroy, hardware_ok, hardware_ok, ← unconstruct_hardware,
    ← unconstruct_hardware (b.recordIf ..).releaseStorage]
  simp only [hardware_releaseStorage, hardware_recordIf, hardware_hardware]

@[simp] theorem Body.hardware_readReg (k : Word w) :
    (b.readReg k).hardware = b.hardware.readReg k := by
  unfold Body.readReg
  rw [hardware_layoutWord]
  cases b.layoutWord k.toNat <;> simp

@[simp] theorem Body.writeAvailable_hardware :
    b.hardware.writeAvailable.hardware = b.writeAvailable.hardware := by
  unfold Body.writeAvailable
  rw [hardware_active]
  split_ifs <;> simp

@[simp] theorem Body.readAvailable_hardware :
    b.hardware.readAvailable.hardware = b.readAvailable.hardware := by
  unfold Body.readAvailable
  rw [hardware_active]
  split_ifs <;> simp

@[simp] theorem Body.startWrite_hardware (n src : Word w) :
    (b.hardware.startWrite n src).hardware = (b.startWrite n src).hardware := rfl

@[simp] theorem Body.startRead_hardware (n dst : Word w) :
    (b.hardware.startRead n dst).hardware = (b.startRead n dst).hardware := rfl

@[simp] theorem Body.acceptWrite_hardware (src nbytes count : Word w) :
    (b.hardware.acceptWrite src nbytes count).hardware =
      (b.acceptWrite src nbytes count).hardware := by
  unfold Body.acceptWrite
  rw [hardware_esz]
  split_ifs <;> simp

@[simp] theorem Body.acceptRead_hardware (dst count : Word w) :
    (b.hardware.acceptRead dst count).hardware = (b.acceptRead dst count).hardware := by
  simp [Body.acceptRead]

@[simp] theorem Body.acceptReadInto_hardware (dst nbytes : Word w) :
    (b.hardware.acceptReadInto dst nbytes).hardware = (b.acceptReadInto dst nbytes).hardware := by
  unfold Body.acceptReadInto
  rw [hardware_esz]
  split_ifs <;> simp

@[simp] theorem Body.hardware_answerRegions (start n : Word w) :
    (b.answerRegions start n).hardware = b.hardware.answerRegions start n := b.hardware_respondOn ..

@[simp] theorem Body.getWriteRegions_hardware (count : Word w) :
    (b.hardware.getWriteRegions count).hardware = (b.getWriteRegions count).hardware := by
  simp [Body.getWriteRegions]

@[simp] theorem Body.getReadRegions_hardware (count : Word w) :
    (b.hardware.getReadRegions count).hardware = (b.getReadRegions count).hardware := by
  simp [Body.getReadRegions]

@[simp] theorem Body.advanceWriteIndex_hardware (count : Word w) :
    (b.hardware.advanceWriteIndex count).hardware = (b.advanceWriteIndex count).hardware := by
  simp only [Body.advanceWriteIndex, hardware_ok]
  rfl

@[simp] theorem Body.advanceReadIndex_hardware (count : Word w) :
    (b.hardware.advanceReadIndex count).hardware = (b.advanceReadIndex count).hardware := by
  simp only [Body.advanceReadIndex, hardware_ok]
  rfl

/-- The accept step of no command reads the ghost state. -/
@[simp] theorem Body.effect_hardware (i : Instr) :
    (b.hardware.effect i).hardware = (b.effect i).hardware := by
  cases i <;> simp [Body.effect]

/-! ### The agents' steps -/

@[simp] theorem Body.hardware_accept (p : PortId) :
    (b.accept p).hardware = b.hardware.accept p := by cases p <;> rfl

@[simp] theorem Body.accepted_hardware (p : PortId) :
    (b.hardware.accepted p).hardware = (b.accepted p).hardware := by
  unfold Body.accepted
  rw [hardware_port]
  cases decode (b.port p).lines.word with
  | ok i => simp only [← hardware_accept, effect_hardware]
  | error _ => simp

@[simp] theorem Body.hardware_present (p : PortId) (c : Command w) :
    (b.present p c).hardware = b.hardware.present p c := by
  simp [Body.present, apply_ite Body.hardware]

@[simp] theorem Body.machineStep_hardware (d : Side) :
    (b.hardware.machineStep d).hardware = (b.machineStep d).hardware := by
  cases d with
  | writer =>
    simp only [Body.machineStep, hardware_writer]
    cases b.writer.st <;> rfl
  | reader =>
    simp only [Body.machineStep, hardware_reader]
    cases b.reader.st <;> rfl

/-- A client's rights are ghost state; they decide what is recorded, not what is loaded (R291). -/
@[simp] theorem Body.clientLoad_hardware (p : PortId) (a : Word w) :
    (b.hardware.clientLoad p a).hardware = (b.clientLoad p a).hardware := by
  simp [Body.clientLoad]

/-- A client's rights are ghost state; they decide what is recorded, not what is stored (R291). -/
@[simp] theorem Body.clientStore_hardware (p : PortId) (a : Word w) (v : Byte) :
    (b.hardware.clientStore p a v).hardware = (b.clientStore p a v).hardware := by
  simp [Body.clientStore]

theorem Body.moved_hardware (m : Move w) : (b.hardware.moved m).hardware = (b.moved m).hardware := by
  cases m with
  | accept p =>
    rw [Body.moved, Body.moved, hardware_ready]
    split_ifs <;> simp
  | present p c => simp [Body.moved]
  | machine d => exact b.machineStep_hardware d
  | load p a => exact b.clientLoad_hardware p a
  | store p a v => exact b.clientStore_hardware p a v

/-- The hardware after a step is a function of the hardware before it. -/
theorem Body.stepped_hardware : b.hardware.stepped.hardware = b.stepped.hardware := by
  cases h : b.sched with
  | nil => rw [stepped_nil _ h, stepped_nil b.hardware h, hardware_hardware]
  | cons m rest =>
    rw [stepped_cons _ h, stepped_cons b.hardware h]
    exact Body.moved_hardware { b with sched := rest } m

/-- Settles O58: each machine's next hardware is the hardware of the step from its own hardware, which
the two machines share. -/
theorem ghostStateNeverReachesTheHardware : Obligations.GhostStateNeverReachesTheHardware := by
  intro w b c b' c' h hb hc
  rw [step_inv b hb, step_inv c hc, ← b.stepped_hardware, h, c.stepped_hardware]

end Sys2Proof.Machine
end

section
/-! What a step can do, said once. A command's rule is one of the exact changes of `Body.Runs`, an
agent's step one of those of `Body.Acts`; beside that change only ports, the model's own fields, the
oracle's coming answers and bytes of memory differ (`Body.Alike`). Every claim about all steps is
then one case analysis over `Runs` and one over `Acts`. -/

namespace Sys2Proof.Machine

variable {w : Width} (b : Body w)

/-! ### The word of an accepted command -/

theorem fst_eq_opcode_of_mem_opcodeMap : ∀ row ∈ opcodeMap, row.1 = opcode row.2 := by decide

/-- A word whose reserved field is 0 is its opcode field, zero-extended (R100). -/
theorem eq_setWidth_opcodeField {word : BitVec 32} (h : reservedField word = 0) :
    word = (opcodeField word).setWidth 32 := by
  have h' := congrArg BitVec.toNat h
  refine BitVec.eq_of_toNat_eq ?_
  simp only [reservedField, opcodeField, BitVec.extractLsb'_toNat, BitVec.toNat_setWidth,
    Nat.shiftRight_eq_div_pow, BitVec.toNat_zero, BitVec.ofNat_eq_ofNat] at h' ⊢
  omega

/-- A word decodes only to the command whose word it is (R103, R106). -/
theorem eq_encode_of_decode {word : BitVec 32} {i : Instr} (h : decode word = .ok i) :
    word = encode i := by
  unfold decode at h
  split_ifs at h with hr
  split at h
  · next row hrow =>
    injection h with h
    have hcode : row.1 = opcodeField word := by simpa using List.find?_some hrow
    rw [encode, ← h, ← fst_eq_opcode_of_mem_opcodeMap row (List.mem_of_find?_eq_some hrow), hcode]
    exact eq_setWidth_opcodeField (not_not.1 hr)
  · cases h

/-! ### What no claim about the registers and the ghost state depends on -/

/-- `c` is `b` up to ports, the model's own fields, the oracle's coming answers and the contents of
a memory that stays canonical. -/
structure Body.Alike (b c : Body w) : Prop where
  registers : SameRegisters b c
  machines : SameMachines b c
  ghost : c.ghost = b.ghost
  live : c.oracle.live = b.oracle.live
  memory : memWf w b.mem = true → memWf w c.mem = true

variable {b} in
theorem Body.Alike.trans {c d : Body w} (h : b.Alike c) (k : c.Alike d) : b.Alike d := by
  obtain ⟨⟨⟨h1, h2, h3, h4, h5, h6, h7⟩, h8, h9⟩, ⟨h10, h11⟩, h12, h13, h14⟩ := h
  obtain ⟨⟨⟨k1, k2, k3, k4, k5, k6, k7⟩, k8, k9⟩, ⟨k10, k11⟩, k12, k13, k14⟩ := k
  exact ⟨⟨⟨k1.trans h1, k2.trans h2, k3.trans h3, k4.trans h4, k5.trans h5, k6.trans h6,
    k7.trans h7⟩, k8.trans h8, k9.trans h9⟩, ⟨k10.trans h10, k11.trans h11⟩, k12.trans h12,
    k13.trans h13, k14 ∘ h14⟩

theorem Body.alike_mem {mem : List Host.Cell} (h : memWf w b.mem = true → memWf w mem = true) :
    b.Alike { b with mem := mem } :=
  ⟨⟨⟨rfl, rfl, rfl, rfl, rfl, rfl, rfl⟩, rfl, rfl⟩, ⟨rfl, rfl⟩, rfl, rfl, h⟩

theorem Body.alike_refl : b.Alike b := b.alike_mem id

theorem Body.alike_surroundings (answers : List (AllocAnswer w)) (p : PortId)
    (sched : List (Move w)) :
    b.Alike { b with oracle := ⟨answers, b.oracle.live⟩, active := p, sched := sched } :=
  ⟨⟨⟨rfl, rfl, rfl, rfl, rfl, rfl, rfl⟩, rfl, rfl⟩, ⟨rfl, rfl⟩, rfl, rfl, id⟩

theorem Body.alike_sched (sched : List (Move w)) : b.Alike { b with sched := sched } :=
  b.alike_surroundings b.oracle.answers b.active sched

theorem Body.alike_putByte (a : Word w) (v : Byte) : b.Alike (b.putByte a v) :=
  b.alike_mem fun h => memWf_memWrite v h a.isLt

theorem Body.alike_setPort (p : PortId) (q : Port w) : b.Alike (b.setPort p q) :=
  ⟨by simp [SameRegisters, SameConfig], by simp [SameMachines], by simp, by simp, by simp⟩

/-- Taking a command off its lines changes one port and the model's own field. -/
theorem Body.alike_accept (p : PortId) : b.Alike (b.accept p) :=
  (b.alike_setPort p _).trans (Body.alike_surroundings _ _ p _)

/-- A response is a change of one port. -/
theorem Body.alike_ok (r0 : Word w) : b.Alike (b.ok r0) := b.alike_setPort ..

theorem Body.alike_raise (st : Status) : b.Alike (b.raise st) := b.alike_setPort ..

/-! ### The changes a rule is made of -/

/-- The write index moved by `n` elements (R46), with the writer's grant items after it. -/
def Body.append (b : Body w) (n : Word w) (grant : Nat) (zc : Bool) : Body w :=
  { b with
    widx := b.idxAdd b.widx n
    ghost := { b.ghost with wlog := b.ghost.wlog + n.toNat, wgrant := grant, wzc := zc } }

/-- The read index moved by `n` elements (R46), with the reader's grant items after it. -/
def Body.take (b : Body w) (n : Word w) (grant : Nat) (zc : Bool) : Body w :=
  { b with
    ridx := b.idxAdd b.ridx n
    ghost := { b.ghost with rlog := b.ghost.rlog + n.toNat, rgrant := grant, rzc := zc } }

/-- Both indices and the ghost items cleared (R250). -/
def Body.emptied (b : Body w) : Body w := { b.clearGhost with widx := 0, ridx := 0 }

/-- ADVANCE_WRITE_INDEX by `n` is an overcommit (R225). -/
def Body.excessWrite (b : Body w) (n : Word w) : Bool :=
  decide (b.ghost.wgrant < n.toNat) || decide (b.qWA < n)

/-- ADVANCE_READ_INDEX by `n` is an overcommit (R233). -/
def Body.excessRead (b : Body w) (n : Word w) : Bool :=
  decide (b.ghost.rgrant < n.toNat) || decide (b.qRA < n)

/-- The element size and capacity of a construction that passed its checks (R131, R135). -/
structure GoodShape (esz n : Word w) : Prop where
  capacity : isPow2 n = true
  elementSize : 0 < esz.toNat
  storageFits : n.toNat * esz.toNat < w.size

/-! ### Commands -/

/-- What the rule of command `i` makes of `b`, its response apart. -/
inductive Body.Runs (b : Body w) : Instr → Body w → Prop
  | responds (i : Instr) : b.Runs i b
  | constructsOwned {esz n base : Word w} {a : Body w} (hp : b.active = .control)
      (hc : b.constructed = false) (hs : GoodShape esz n)
      (ha : b.allocRequest (n.toNat * esz.toNat) = (a, some base)) :
      b.Runs .new (a.construct esz n base true)
  | constructsBorrowed {esz nbytes addr : Word w} (hp : b.active = .control)
      (hc : b.constructed = false) (hz : esz ≠ 0) (hs : GoodShape esz (quotient nbytes esz)) :
      b.Runs .newWithStorage ((b.recordIf (rangeWraps addr nbytes.toNat) .regionWrap).construct
        esz (quotient nbytes esz) addr false)
  | flushes (hp : b.active = .control) (hc : b.constructed = true) :
      b.Runs .flush (b.recordIf b.inFlight .flushInFlight).emptied
  | destroys (hp : b.active = .control) (hc : b.constructed = true) :
      b.Runs .destroy (b.recordIf b.inFlight .destroyInFlight).releaseStorage.unconstruct
  | grantsWrite {i : Instr} {n : Nat} (zc : Bool) (hp : b.active = .writer)
      (hc : b.constructed = true) (hn : n ≤ b.qWA.toNat) : b.Runs i (b.setWriteGrant n zc)
  | grantsRead {i : Instr} {n : Nat} (zc : Bool) (hp : b.active = .reader)
      (hc : b.constructed = true) (hn : n ≤ b.qRA.toNat) : b.Runs i (b.setReadGrant n zc)
  | startsWrite {n : Word w} (src : Word w) (hp : b.active = .writer) (hc : b.constructed = true)
      (hn : n.toNat ≤ b.qWA.toNat) : b.Runs .write (b.startWrite n src)
  | startsRead {i : Instr} {n : Word w} (dst : Word w) (hp : b.active = .reader)
      (hc : b.constructed = true) (hn : n.toNat ≤ b.qRA.toNat) : b.Runs i (b.startRead n dst)
  | advancesWrite (n : Word w) (hp : b.active = .writer) (hc : b.constructed = true) :
      b.Runs .advanceWriteIndex ((b.recordIf (b.excessWrite n) .overcommitWrite).append n
        (b.ghost.wgrant - n.toNat) false)
  | advancesRead (n : Word w) (hp : b.active = .reader) (hc : b.constructed = true) :
      b.Runs .advanceReadIndex ((b.recordIf (b.excessRead n) .overcommitRead).take n
        (b.ghost.rgrant - n.toNat) false)

/-- `r` is what the rule of command `i` makes of `b`, with a response. -/
def Body.RunsTo (b : Body w) (i : Instr) (r : Body w) : Prop := ∃ c, b.Runs i c ∧ c.Alike r

variable {b}

theorem Body.Runs.ok {i : Instr} {c : Body w} (h : b.Runs i c) (r0 : Word w) :
    b.RunsTo i (c.ok r0) :=
  ⟨c, h, c.alike_ok r0⟩

theorem runsTo_raise (i : Instr) (st : Status) : b.RunsTo i (b.raise st) :=
  ⟨b, .responds i, b.alike_raise st⟩

theorem runsTo_ok (i : Instr) (r0 : Word w) : b.RunsTo i (b.ok r0) := (Body.Runs.responds i).ok r0

theorem runsTo_command {i : Instr} {rule : Body w} (h : b.active ∈ i.ports → b.RunsTo i rule) :
    b.RunsTo i (b.command i rule) := by
  rcases command_cases b i rule with hr | ⟨hp, hr⟩ <;> rw [hr]
  · exact runsTo_raise i _
  · exact h hp

theorem runsTo_constructedCommand {i : Instr} {rule : Body w}
    (h : b.active ∈ i.ports → b.constructed = true → b.RunsTo i rule) :
    b.RunsTo i (b.constructedCommand i rule) := by
  rcases constructedCommand_cases b i rule with hr | hr | ⟨hp, hc, hr⟩ <;> rw [hr]
  · exact runsTo_raise i _
  · exact runsTo_raise i _
  · exact h hp hc

/-- A word that is not 0 has a positive value. -/
theorem toNat_pos_of_ne_zero {x : Word w} (h : x ≠ 0) : 0 < x.toNat :=
  Nat.pos_of_ne_zero fun h0 => h (word_eq_zero_iff.2 h0)

theorem quotient_mul_le {esz nbytes : Word w} (h : esz ≠ 0) :
    (quotient nbytes esz).toNat * esz.toNat ≤ nbytes.toNat := by
  rw [quotient_toNat h]
  exact Nat.div_mul_le_self _ _

theorem runsTo_new (hp : b.active = .control) (esz n : Word w) : b.RunsTo .new (b.new esz n) := by
  unfold Body.new
  split_ifs with hc hz hpow hfit
  iterate 4 exact runsTo_raise _ _
  have hs : GoodShape esz n := ⟨by simpa using hpow, toNat_pos_of_ne_zero hz, not_le.1 hfit⟩
  rcases allocRequest_cases b (n.toNat * esz.toNat) with ⟨answers, ha⟩ | ⟨base, _, _, -, -, ha⟩
  · rw [ha]
    exact ⟨b, .responds _, (b.alike_surroundings answers _ _).trans (Body.alike_raise ..)⟩
  · rw [ha]
    exact (Body.Runs.constructsOwned hp (by simpa using hc) hs ha).ok base

theorem runsTo_newWithStorage (hp : b.active = .control) (esz addr nbytes : Word w) :
    b.RunsTo .newWithStorage (b.newWithStorage esz addr nbytes) := by
  unfold Body.newWithStorage
  split_ifs with hc hz hrem hpow
  iterate 4 exact runsTo_raise _ _
  have hs : GoodShape esz (quotient nbytes esz) := ⟨by simpa using hpow, toNat_pos_of_ne_zero hz,
    (quotient_mul_le hz).trans_lt nbytes.isLt⟩
  exact (Body.Runs.constructsBorrowed hp (by simpa using hc) hz hs).ok addr

theorem runsTo_readReg (k : Word w) : b.RunsTo .readReg (b.readReg k) := by
  unfold Body.readReg
  cases b.layoutWord k.toNat with
  | none => exact runsTo_raise _ _
  | some v => exact runsTo_ok _ v

theorem runsTo_writeAvailable (hc : b.constructed = true) :
    b.RunsTo .writeAvailable b.writeAvailable := by
  unfold Body.writeAvailable
  split_ifs with hp
  · exact (Body.Runs.grantsWrite _ hp hc le_rfl).ok _
  · exact runsTo_ok _ _

theorem runsTo_readAvailable (hc : b.constructed = true) :
    b.RunsTo .readAvailable b.readAvailable := by
  unfold Body.readAvailable
  split_ifs with hp
  · exact (Body.Runs.grantsRead _ hp hc le_rfl).ok _
  · exact runsTo_ok _ _

/-- A clamped count is available (R178). -/
theorem clamp_le (count avail : Word w) : (b.clamp count avail).toNat ≤ avail.toNat := by
  rw [clamp_toNat]
  omega

theorem runsTo_acceptWrite (hp : b.active = .writer) (hc : b.constructed = true)
    (src nbytes count : Word w) : b.RunsTo .write (b.acceptWrite src nbytes count) := by
  unfold Body.acceptWrite
  split_ifs
  · exact runsTo_raise _ _
  · exact runsTo_raise _ _
  · exact ⟨_, .startsWrite src hp hc (clamp_le count _), Body.alike_refl _⟩

theorem runsTo_acceptRead (hp : b.active = .reader) (hc : b.constructed = true) (i : Instr)
    (dst count : Word w) : b.RunsTo i (b.acceptRead dst count) :=
  ⟨_, .startsRead dst hp hc (clamp_le count _), Body.alike_refl _⟩

theorem runsTo_acceptReadInto (hp : b.active = .reader) (hc : b.constructed = true)
    (dst nbytes : Word w) : b.RunsTo .readInto (b.acceptReadInto dst nbytes) := by
  unfold Body.acceptReadInto
  split_ifs
  · exact runsTo_raise _ _
  · exact runsTo_acceptRead hp hc _ dst _

theorem runsTo_getWriteRegions (hp : b.active = .writer) (hc : b.constructed = true)
    (count : Word w) : b.RunsTo .getWriteRegions (b.getWriteRegions count) :=
  ⟨_, .grantsWrite true hp hc (clamp_le count _), Body.alike_setPort ..⟩

theorem runsTo_getReadRegions (hp : b.active = .reader) (hc : b.constructed = true)
    (count : Word w) : b.RunsTo .getReadRegions (b.getReadRegions count) :=
  ⟨_, .grantsRead true hp hc (clamp_le count _), Body.alike_setPort ..⟩

/-- What the accept step of a command can do. -/
theorem effect_runs (b : Body w) (i : Instr) : b.RunsTo i (b.effect i) := by
  cases i with
  | new => exact runsTo_command fun hp => runsTo_new (List.mem_singleton.1 hp) _ _
  | newWithStorage =>
    exact runsTo_command fun hp => runsTo_newWithStorage (List.mem_singleton.1 hp) _ _ _
  | destroy =>
    exact runsTo_constructedCommand fun hp hc =>
      (Body.Runs.destroys (List.mem_singleton.1 hp) hc).ok 0
  | flush =>
    exact runsTo_constructedCommand fun hp hc =>
      (Body.Runs.flushes (List.mem_singleton.1 hp) hc).ok 0
  | readReg => exact runsTo_constructedCommand fun _ _ => runsTo_readReg _
  | len => exact runsTo_constructedCommand fun _ _ => runsTo_ok _ _
  | elementSize => exact runsTo_constructedCommand fun _ _ => runsTo_ok _ _
  | writeAvailable => exact runsTo_constructedCommand fun _ hc => runsTo_writeAvailable hc
  | write =>
    exact runsTo_constructedCommand fun hp hc =>
      runsTo_acceptWrite (List.mem_singleton.1 hp) hc _ _ _
  | getWriteRegions =>
    exact runsTo_constructedCommand fun hp hc =>
      runsTo_getWriteRegions (List.mem_singleton.1 hp) hc _
  | advanceWriteIndex =>
    exact runsTo_constructedCommand fun hp hc =>
      (Body.Runs.advancesWrite _ (List.mem_singleton.1 hp) hc).ok _
  | readAvailable => exact runsTo_constructedCommand fun _ hc => runsTo_readAvailable hc
  | read =>
    exact runsTo_constructedCommand fun hp hc =>
      runsTo_acceptRead (List.mem_singleton.1 hp) hc _ _ _
  | readInto =>
    exact runsTo_constructedCommand fun hp hc =>
      runsTo_acceptReadInto (List.mem_singleton.1 hp) hc _ _
  | getReadRegions =>
    exact runsTo_constructedCommand fun hp hc =>
      runsTo_getReadRegions (List.mem_singleton.1 hp) hc _
  | advanceReadIndex =>
    exact runsTo_constructedCommand fun hp hc =>
      (Body.Runs.advancesRead _ (List.mem_singleton.1 hp) hc).ok _

/-! ### Agents' steps -/

/-- What one agent's step makes of `b`, up to what `Body.Alike` leaves open. -/
inductive Body.Acts (b : Body w) : Move w → Body w → Prop
  | keeps (m : Move w) : b.Acts m b
  | accesses (m : Move w) (c : Bool) : b.Acts m (b.recordIf c .storageAccess)
  | copiesWrite (h : b.writer.st = .copy) :
      b.Acts (.machine .writer) { b with writer := b.writer.moved b.esz }
  | copiesRead (h : b.reader.st = .copy) :
      b.Acts (.machine .reader) { b with reader := b.reader.moved b.esz }
  | publishesWrite (h : b.writer.st = .publish) :
      b.Acts (.machine .writer)
        ((b.quiesce .writer).append b.writer.n b.ghost.wgrant b.ghost.wzc)
  | publishesRead (h : b.reader.st = .publish) :
      b.Acts (.machine .reader) ((b.quiesce .reader).take b.reader.n b.ghost.rgrant b.ghost.rzc)
  | accepts {p : PortId} {i : Instr} {c : Body w} (hr : b.ready p = true)
      (hw : (b.port p).lines.word = encode i) (h : (b.accept p).Runs i c) : b.Acts (.accept p) c

/-- `r` is what the move `m` makes of `b`. -/
def Body.ActsTo (b : Body w) (m : Move w) (r : Body w) : Prop := ∃ c, b.Acts m c ∧ c.Alike r

theorem actsTo_present (p : PortId) (c : Command w) : b.ActsTo (.present p c) (b.present p c) := by
  unfold Body.present
  split_ifs
  · exact ⟨b, .keeps _, b.alike_refl⟩
  · exact ⟨b, .keeps _, b.alike_setPort ..⟩

theorem actsTo_accepted {p : PortId} (hr : b.ready p = true) :
    b.ActsTo (.accept p) (b.accepted p) := by
  unfold Body.accepted
  cases hd : decode (b.port p).lines.word with
  | ok i =>
    obtain ⟨c, hc, ha⟩ := effect_runs (b.accept p) i
    exact ⟨c, .accepts hr (eq_encode_of_decode hd) hc, ha⟩
  | error e =>
    exact ⟨b, .keeps _, (b.alike_accept p).trans (Body.alike_raise ..)⟩

theorem actsTo_machineStep (d : Side) : b.ActsTo (.machine d) (b.machineStep d) := by
  cases d with
  | writer =>
    cases hs : b.writer.st with
    | idle => exact ⟨b, .keeps _, by simpa only [Body.machineStep, hs] using b.alike_refl⟩
    | copy =>
      refine ⟨_, .copiesWrite hs, ?_⟩
      simp only [Body.machineStep, hs]
      exact Body.alike_putByte { b with writer := b.writer.moved b.esz } _ _
    | publish =>
      refine ⟨_, .publishesWrite hs, ?_⟩
      simp only [Body.machineStep, hs]
      exact Body.alike_setPort (Body.append ..) .writer _
  | reader =>
    cases hs : b.reader.st with
    | idle => exact ⟨b, .keeps _, by simpa only [Body.machineStep, hs] using b.alike_refl⟩
    | copy =>
      refine ⟨_, .copiesRead hs, ?_⟩
      simp only [Body.machineStep, hs]
      exact Body.alike_putByte { b with reader := b.reader.moved b.esz } _ _
    | publish =>
      refine ⟨_, .publishesRead hs, ?_⟩
      simp only [Body.machineStep, hs]
      exact Body.alike_setPort (Body.take ..) .reader _

/-- What one agent's step can do. -/
theorem moved_acts (b : Body w) (m : Move w) : b.ActsTo m (b.moved m) := by
  cases m with
  | present p c => exact actsTo_present p c
  | accept p =>
    rw [Body.moved]
    split_ifs with hr
    · exact actsTo_accepted hr
    · exact ⟨b, .keeps _, b.alike_refl⟩
  | machine d => exact actsTo_machineStep d
  | load p a => exact ⟨_, .accesses _ _, Body.alike_setPort ..⟩
  | store p a v => exact ⟨_, .accesses _ _, Body.alike_putByte ..⟩

/-- A relation that holds where nothing happens and over each agent's step holds over every step. -/
theorem step_rel {R : Body w → Body w → Prop} {b' : Body w} (h : step ⟨w, b⟩ = .next ⟨w, b'⟩)
    (waits : R b b)
    (moves : ∀ m rest, b.sched = m :: rest → R b (Body.moved { b with sched := rest } m)) :
    R b b' := by
  rw [step_inv b h]
  cases hs : b.sched with
  | nil => rwa [stepped_nil b hs]
  | cons m rest =>
    rw [stepped_cons b hs]
    exact moves m rest hs

end Sys2Proof.Machine
end

section
/-! What no step does: it takes no name out of the fault set (R49), changes no configuration
register of a block that stays constructed (R33 to R38), and moves an index only as its writers do
(R31, R32, R259). -/

namespace Sys2Proof.Machine

variable {w : Width} {b c d : Body w}

/-! ### The fault set -/

/-- What a request that is served makes of the machine (R10). -/
theorem allocRequest_some {n : Nat} {a : Body w} {base : Word w}
    (h : b.allocRequest n = (a, some base)) : b.oracle.mayGrant base.toNat n = true ∧
      ∃ (rest : List (AllocAnswer w)) (bytes : List Byte), a = { b with
        oracle := ⟨rest, (base.toNat, n) :: b.oracle.live⟩
        mem := memOverlay b.mem base bytes } := by
  rcases allocRequest_cases b n with ⟨_, h'⟩ | ⟨_, bytes, rest, -, hg, h'⟩ <;> rw [h'] at h
  · cases h
  · cases h
    exact ⟨hg, rest, _, rfl⟩

/-- DESTROY's release takes at most a region from the oracle's live ones (R254). -/
theorem releaseStorage_eq (b : Body w) : ∃ live, live.Sublist b.oracle.live ∧
    b.releaseStorage = { b with oracle := ⟨b.oracle.answers, live⟩ } := by
  unfold Body.releaseStorage
  split_ifs
  · exact ⟨_, List.erase_sublist, rfl⟩
  · exact ⟨_, List.Sublist.refl _, rfl⟩

theorem has_recordIf_mono {x : MFault} (cond : Bool) (y : MFault)
    (h : b.ghost.faults.has x = true) : (b.recordIf cond y).ghost.faults.has x = true := by
  cases cond
  · exact h
  · exact FaultSet.has_add_mono _ _ _ h

theorem Body.Runs.faults_mono {i : Instr} {x : MFault} (h : b.Runs i c)
    (hx : b.ghost.faults.has x = true) : c.ghost.faults.has x = true := by
  cases h with
  | responds => exact hx
  | constructsOwned _ _ _ ha =>
    obtain ⟨-, _, _, rfl⟩ := allocRequest_some ha
    exact hx
  | constructsBorrowed => exact has_recordIf_mono _ _ hx
  | flushes => exact has_recordIf_mono _ _ hx
  | destroys =>
    obtain ⟨_, -, hrel⟩ := releaseStorage_eq (b.recordIf b.inFlight .destroyInFlight)
    rw [hrel]
    exact has_recordIf_mono _ _ hx
  | grantsWrite => exact hx
  | grantsRead => exact hx
  | startsWrite => exact has_recordIf_mono (b := b.setWriteGrant 0 false) _ _ hx
  | startsRead => exact has_recordIf_mono (b := b.setReadGrant 0 false) _ _ hx
  | advancesWrite => exact has_recordIf_mono _ _ hx
  | advancesRead => exact has_recordIf_mono _ _ hx

theorem Body.Acts.faults_mono {m : Move w} {x : MFault} (h : b.Acts m c)
    (hx : b.ghost.faults.has x = true) : c.ghost.faults.has x = true := by
  cases h with
  | keeps => exact hx
  | accesses => exact has_recordIf_mono _ _ hx
  | copiesWrite => exact hx
  | copiesRead => exact hx
  | publishesWrite => exact hx
  | publishesRead => exact hx
  | accepts _ _ h => exact h.faults_mono ((b.alike_accept _).ghost ▸ hx)

/-- Settles O53: what an agent's step makes of the ghost state holds every name that was recorded.
-/
theorem faultsAreSticky : Obligations.FaultsAreSticky := by
  intro w b b' x h hx
  refine step_rel (R := fun _ d => d.ghost.faults.has x = true) h hx fun m rest _ => ?_
  obtain ⟨c, hc, ha⟩ := moved_acts { b with sched := rest } m
  rw [ha.ghost]
  exact hc.faults_mono hx

/-! ### The configuration registers -/

theorem SameConfig.refl (b : Body w) : SameConfig b b := ⟨rfl, rfl, rfl, rfl, rfl, rfl, rfl⟩

theorem SameConfig.trans (h : SameConfig b c) (k : SameConfig c d) : SameConfig b d := by
  obtain ⟨h1, h2, h3, h4, h5, h6, h7⟩ := h
  obtain ⟨k1, k2, k3, k4, k5, k6, k7⟩ := k
  exact ⟨k1.trans h1, k2.trans h2, k3.trans h3, k4.trans h4, k5.trans h5, k6.trans h6, k7.trans h7⟩

theorem SameConfig.constructed (h : SameConfig b c) : c.constructed = b.constructed := by
  obtain ⟨-, -, -, -, -, -, h7⟩ := h
  exact h7

theorem Body.Alike.config (h : b.Alike c) : SameConfig b c := h.registers.1

/-- Only a construction of an unconstructed block and DESTROY load the configuration registers. -/
theorem Body.Runs.sameConfig {i : Instr} (h : b.Runs i c) (hb : b.constructed = true)
    (hc : c.constructed = true) : SameConfig b c := by
  cases h with
  | constructsOwned _ hn => rw [hb] at hn; cases hn
  | constructsBorrowed _ hn => rw [hb] at hn; cases hn
  | destroys => cases hc
  | _ => exact SameConfig.refl b

theorem Body.Acts.sameConfig {m : Move w} (h : b.Acts m c) (hb : b.constructed = true)
    (hc : c.constructed = true) : SameConfig b c := by
  cases h with
  | @accepts p _ _ _ _ h =>
    have ha := (b.alike_accept p).config
    exact ha.trans (h.sameConfig (ha.constructed.trans hb) hc)
  | _ => exact SameConfig.refl b

/-- Settles O54: beside a construction of an unconstructed block and DESTROY, a step's exact change
names no configuration register. -/
theorem configurationIsConstantWhileConstructed :
    Obligations.ConfigurationIsConstantWhileConstructed := by
  intro w b b' h hb hb'
  refine step_rel (R := fun b d => b.constructed = true → d.constructed = true → SameConfig b d) h
    (fun _ _ => SameConfig.refl b) (fun m rest _ hb hd => ?_) hb hb'
  obtain ⟨c, hc, ha⟩ := moved_acts { b with sched := rest } m
  exact SameConfig.trans (b := { b with sched := rest })
    (hc.sameConfig hb (ha.config.constructed ▸ hd)) ha.config

/-! ### The index registers -/

/-- The commands of port C that clear both indices (R259). -/
def indexClears : List Instr := [.new, .newWithStorage, .flush, .destroy]

/-- A command that moves an index, and the port it was issued on. -/
theorem Body.Runs.indices {i : Instr} (h : b.Runs i c) :
    (b.active = .control ∧ i ∈ indexClears) ∨
      ((c.widx = b.widx ∨ (b.active = .writer ∧ i = .advanceWriteIndex)) ∧
        (c.ridx = b.ridx ∨ (b.active = .reader ∧ i = .advanceReadIndex))) := by
  cases h with
  | constructsOwned hp => exact .inl ⟨hp, by decide⟩
  | constructsBorrowed hp => exact .inl ⟨hp, by decide⟩
  | flushes hp => exact .inl ⟨hp, by decide⟩
  | destroys hp => exact .inl ⟨hp, by decide⟩
  | advancesWrite n hp => exact .inr ⟨.inr ⟨hp, rfl⟩, .inl rfl⟩
  | advancesRead n hp => exact .inr ⟨.inl rfl, .inr ⟨hp, rfl⟩⟩
  | _ => exact .inr ⟨.inl rfl, .inl rfl⟩

/-- The move `m` is a command accepted on port C that clears both indices. -/
def Body.ControlClears (b : Body w) (m : Move w) : Prop :=
  m = .accept .control ∧
    b.portC.lines.word ∈ [encode .new, encode .newWithStorage, encode .flush, encode .destroy]

/-- The writers of the write index on port W (R31). -/
def Body.MovesWriteIndex (b : Body w) (m : Move w) : Prop :=
  (m = .machine .writer ∧ b.writer.st = .publish) ∨
    (m = .accept .writer ∧ b.portW.lines.word = encode .advanceWriteIndex)

/-- The writers of the read index on port R (R32). -/
def Body.MovesReadIndex (b : Body w) (m : Move w) : Prop :=
  (m = .machine .reader ∧ b.reader.st = .publish) ∨
    (m = .accept .reader ∧ b.portR.lines.word = encode .advanceReadIndex)

/-- An agent's step that moves an index is one of the index's writers. -/
theorem Body.Acts.indices {m : Move w} (h : b.Acts m c) : b.ControlClears m ∨
    ((c.widx = b.widx ∨ b.MovesWriteIndex m) ∧ (c.ridx = b.ridx ∨ b.MovesReadIndex m)) := by
  cases h with
  | publishesWrite hs => exact .inr ⟨.inr (.inl ⟨rfl, hs⟩), .inl rfl⟩
  | publishesRead hs => exact .inr ⟨.inl rfl, .inr (.inl ⟨rfl, hs⟩)⟩
  | @accepts p i c _ hw h =>
    obtain ⟨-, hwidx, hridx⟩ := (b.alike_accept p).registers
    rcases h.indices with ⟨hp, hi⟩ | ⟨hwrite, hread⟩
    · obtain rfl : p = .control := hp
      exact .inl ⟨rfl, (show b.portC.lines.word = _ from hw) ▸ List.mem_map_of_mem hi⟩
    · refine .inr ⟨hwrite.imp hwidx.subst ?_, hread.imp hridx.subst ?_⟩
      · rintro ⟨hp, rfl⟩
        obtain rfl : p = .writer := hp
        exact .inr ⟨rfl, hw⟩
      · rintro ⟨hp, rfl⟩
        obtain rfl : p = .reader := hp
        exact .inr ⟨rfl, hw⟩
  | _ => exact .inr ⟨.inl rfl, .inl rfl⟩

/-- Settles O55: an agent's step leaves an index as it was, or is one of the index's writers. -/
theorem onlyTheirWritersMoveTheIndices : Obligations.OnlyTheirWritersMoveTheIndices := by
  intro w b b' h
  rw [step_inv b h]
  cases hs : b.sched with
  | nil =>
    rw [stepped_nil b hs]
    exact ⟨fun hne => absurd rfl hne, fun hne => absurd rfl hne⟩
  | cons m rest =>
    rw [stepped_cons b hs, List.head?_cons]
    obtain ⟨c, hc, ha⟩ := moved_acts { b with sched := rest } m
    obtain ⟨-, hwidx, hridx⟩ := ha.registers
    rw [hwidx, hridx]
    simp only [Option.some.injEq, ← or_assoc]
    rcases hc.indices with hcontrol | ⟨hwrite, hread⟩
    · exact ⟨fun _ => .inr hcontrol, fun _ => .inr hcontrol⟩
    · exact ⟨.inl ∘ hwrite.resolve_left, .inl ∘ hread.resolve_left⟩

end Sys2Proof.Machine
end

section
/-! The storage rights of R48: a slot is granted exactly where a granted element stands in it. -/

namespace Sys2Proof.Machine

/-- The distance `slotGranted` takes is the least one: that of any element in the slot, reduced. -/
theorem distance_eq_mod {cap : Nat} (start d : Nat) (hcap : 0 < cap) :
    ((start + d) % cap + (cap - start % cap)) % cap = d % cap := by
  have hlt := Nat.mod_lt start hcap
  have hdiv := Nat.mod_add_div start cap
  have hsum : start + d + (cap - start % cap) = d + cap * (start / cap + 1) := by
    rw [Nat.mul_add]
    omega
  rw [Nat.mod_add_mod, hsum, Nat.add_mul_mod_self_left]

/-- The element at that distance stands in the slot. -/
theorem add_distance_mod {cap start slot : Nat} (h : slot < cap) :
    (start + (slot + (cap - start % cap)) % cap) % cap = slot := by
  have hlt := Nat.mod_lt start (Nat.zero_lt_of_lt h)
  have hdiv := Nat.mod_add_div start cap
  have hsum : start + (slot + (cap - start % cap)) = slot + cap * (start / cap + 1) := by
    rw [Nat.mul_add]
    omega
  rw [Nat.add_mod_mod, hsum, Nat.add_mul_mod_self_left, Nat.mod_eq_of_lt h]

/-- Settles O46: the tested distance leads to the slot, and no granted element in it is nearer. -/
theorem grantedSlotsAreThoseOfTheGrantedElements :
    Obligations.GrantedSlotsAreThoseOfTheGrantedElements := by
  intro cap start count slot hslot
  rw [slotGranted, decide_eq_true_iff]
  constructor
  · exact fun h => ⟨_, h, add_distance_mod hslot⟩
  · rintro ⟨d, hd, rfl⟩
    rw [distance_eq_mod start d (Nat.zero_lt_of_lt hslot)]
    exact (Nat.mod_le d cap).trans_lt hd

end Sys2Proof.Machine
end

section
/-! The invariant of every state (R31 to R38, R46, R50, R10) is kept by every step, faulted or not:
each exact change of `Body.Runs` and `Body.Acts` keeps it, and it does not depend on the rest. -/

namespace Sys2Proof.Machine

variable {w : Width} {b c : Body w}

/-! ### Capacities and indices as natural numbers -/

/-- A capacity is a power of two whose double divides the number of words (R33, R130). -/
theorem exists_two_pow_of_isPow2 {n : Word w} (h : isPow2 n = true) :
    ∃ k, n.toNat = 2 ^ k ∧ 2 * n.toNat ∣ w.size := by
  obtain ⟨h0, hand⟩ : n ≠ 0 ∧ n &&& (n - 1) = 0 := by simpa [isPow2] using h
  have hpos := toNat_pos_of_ne_zero h0
  have hpred : (n - 1).toNat = n.toNat - 1 := by
    rw [BitVec.toNat_sub_of_le (by rw [BitVec.le_def, toNat_one_word]; omega), toNat_one_word]
  have hnat : n.toNat &&& (n.toNat - 1) = 0 := by
    rw [← hpred, ← BitVec.toNat_and, hand]
    simp
  obtain ⟨k, hk⟩ := exists_two_pow_of_and_pred n.toNat hpos hnat
  have hlt : k < w.bits := (Nat.pow_lt_pow_iff_right (by decide : 1 < 2)).1 (hk ▸ n.isLt)
  refine ⟨k, hk, ?_⟩
  rw [hk, ← Nat.pow_succ']
  exact Nat.pow_dvd_pow 2 hlt

theorem bigMask_toNat {n : Word w} (h : isPow2 n = true) : (bigMask n).toNat = 2 * n.toNat - 1 := by
  obtain ⟨-, -, hdvd⟩ := exists_two_pow_of_isPow2 h
  have hle := Nat.le_of_dvd (Nat.two_pow_pos _) hdvd
  have hpos : 0 < w.size := Nat.two_pow_pos _
  rw [bigMask, BitVec.toNat_ofNat, Nat.mod_eq_of_lt (by omega)]

theorem smallMask_toNat {n : Word w} (h : isPow2 n = true) : (smallMask n).toNat = n.toNat - 1 := by
  obtain ⟨k, hk, -⟩ := exists_two_pow_of_isPow2 h
  have hpos : 0 < n.toNat := hk ▸ Nat.two_pow_pos k
  rw [smallMask, BitVec.toNat_sub_of_le (by rw [BitVec.le_def, toNat_one_word]; omega),
    toNat_one_word]

/-- Masking an index with `BMASK` takes it modulo `2*CAP` (R163). -/
theorem Body.Configured.toNat_and_bmask (h : b.Configured) (x : Word w) :
    (x &&& b.bmask).toNat = x.toNat % (2 * b.cap.toNat) := by
  obtain ⟨k, hk, -⟩ := exists_two_pow_of_isPow2 h.capacity
  rw [hk, ← Nat.pow_succ']
  exact toNat_and_mask x _ (k + 1) (by rw [h.bigMask, hk, Nat.pow_succ'])

/-- An index that follows a logical index still follows it after `IdxAdd` (R46, R163). -/
theorem Body.Configured.idxAdd_toNat (h : b.Configured) {i : Word w} {log : Nat}
    (hi : i.toNat = log % (2 * b.cap.toNat)) (n : Word w) :
    (b.idxAdd i n).toNat = (log + n.toNat) % (2 * b.cap.toNat) := by
  obtain ⟨-, -, hdvd⟩ := exists_two_pow_of_isPow2 h.capacity
  rw [Body.idxAdd, h.toNat_and_bmask, BitVec.toNat_add, Nat.mod_mod_of_dvd _ hdvd, hi,
    Nat.mod_add_mod]

/-! ### The exact changes -/

theorem Body.Inv.alike (h : b.Inv) (ha : b.Alike c) : c.Inv :=
  inv_congr h ha.registers (by rw [ha.ghost]) (by rw [ha.ghost]) (ha.memory h.memory) ha.live

/-- Moving the indices keeps the invariant where they follow the logical indices (R46), and stay 0
in an unconstructed block (R50). -/
theorem Body.Inv.of_indices (h : b.Inv) (hc : SameConfig b c) (hm : c.mem = b.mem)
    (hl : c.oracle.live = b.oracle.live)
    (hzero : b.constructed = false → c.widx = 0 ∧ c.ridx = 0)
    (hfollow : b.Configured → c.widx.toNat = c.ghost.wlog % (2 * b.cap.toNat) ∧
      c.ridx.toNat = c.ghost.rlog % (2 * b.cap.toNat)) : c.Inv := by
  obtain ⟨h1, h2, h3, h4, h5, h6, h7⟩ := hc
  have hs : c.storageBytes = b.storageBytes := by rw [Body.storageBytes, h1, h4, Body.storageBytes]
  refine ⟨hm ▸ h.memory, fun hn => ?_, fun hk => ?_, hl ▸ h.liveApart, hl ▸ h.liveFits, ?_⟩
  · obtain ⟨k1, -, -, k4, k5, k6, k7, k8⟩ := h.unconstructed (h7 ▸ hn)
    obtain ⟨k2, k3⟩ := hzero (h7 ▸ hn)
    exact ⟨h1.trans k1, k2, k3, h2.trans k4, h3.trans k5, h4.trans k6, h5.trans k7, h6.trans k8⟩
  · have hb := h.constructed (h7 ▸ hk)
    obtain ⟨hw, hr⟩ := hfollow hb
    exact ⟨h1 ▸ hb.capacity, by rw [h1, h2, hb.bigMask], by rw [h1, h3, hb.smallMask],
      h4 ▸ hb.elementSize, hs ▸ hb.storageFits, h1 ▸ hw, h1 ▸ hr⟩
  · rw [h5, h6, hl, hs]
    exact h.ownedLive

/-- The index adder of an unconstructed block answers 0: its mask is 0 (R50). -/
theorem Body.Inv.idxAdd_eq_zero (h : b.Inv) (hn : b.constructed = false) (i n : Word w) :
    b.idxAdd i n = 0 := by
  obtain ⟨-, -, -, hmask, -⟩ := h.unconstructed hn
  rw [Body.idxAdd, hmask, BitVec.ofNat_eq_ofNat, BitVec.and_zero]

theorem Body.Inv.append (h : b.Inv) (n : Word w) (grant : Nat) (zc : Bool) :
    (b.append n grant zc).Inv := by
  refine h.of_indices (SameConfig.refl b) rfl rfl (fun hn => ?_) fun hk => ?_
  · obtain ⟨-, -, hridx, -⟩ := h.unconstructed hn
    exact ⟨h.idxAdd_eq_zero hn _ n, hridx⟩
  · exact ⟨hk.idxAdd_toNat hk.writeIndex n, hk.readIndex⟩

theorem Body.Inv.take (h : b.Inv) (n : Word w) (grant : Nat) (zc : Bool) :
    (b.take n grant zc).Inv := by
  refine h.of_indices (SameConfig.refl b) rfl rfl (fun hn => ?_) fun hk => ?_
  · obtain ⟨-, hwidx, -⟩ := h.unconstructed hn
    exact ⟨hwidx, h.idxAdd_eq_zero hn _ n⟩
  · exact ⟨hk.writeIndex, hk.idxAdd_toNat hk.readIndex n⟩

theorem Body.Inv.emptied (h : b.Inv) : b.emptied.Inv := by
  refine h.of_indices (SameConfig.refl b) rfl rfl (fun _ => ⟨rfl, rfl⟩) fun _ => ?_
  simp [Body.emptied]

/-- A change of the ghost state beside the logical indices, and of the machines, keeps the
invariant. -/
theorem Body.Inv.of_same (h : b.Inv) (hr : SameRegisters b c) (hm : c.mem = b.mem)
    (ho : c.oracle = b.oracle) (hw : c.ghost.wlog = b.ghost.wlog)
    (hl : c.ghost.rlog = b.ghost.rlog) : c.Inv :=
  inv_congr h hr hw hl (hm ▸ h.memory) (ho ▸ rfl)

theorem SameRegisters.refl (b : Body w) : SameRegisters b b := ⟨SameConfig.refl b, rfl, rfl⟩

theorem Body.Inv.recordIf (h : b.Inv) (cond : Bool) (x : MFault) : (b.recordIf cond x).Inv :=
  h.of_same (SameRegisters.refl b) rfl rfl rfl rfl

/-- A served request adds a region that fits and overlaps no live one (R10). -/
theorem Body.Inv.granted (h : b.Inv) {n : Nat} {a : Body w} {base : Word w} (hn : 0 < n)
    (ha : b.allocRequest n = (a, some base)) : a.Inv := by
  obtain ⟨hgrant, rest, bytes, rfl⟩ := allocRequest_some ha
  obtain ⟨hfit, hapart⟩ : base.toNat + n ≤ w.size ∧
      ∀ r ∈ b.oracle.live, rangesApart (base.toNat, n) r = true := by
    simpa [Oracle.mayGrant] using hgrant
  exact {
    memory := memWf_memOverlay _ _ h.memory
    unconstructed := h.unconstructed
    constructed := fun hk => { h.constructed hk with }
    liveApart := List.pairwise_cons.2 ⟨hapart, h.liveApart⟩
    liveFits := List.forall_mem_cons.2 ⟨⟨hn, hfit⟩, h.liveFits⟩
    ownedLive := fun ho => List.mem_cons_of_mem _ (h.ownedLive ho) }

/-- The registers a construction loads are those of a configured, empty block (R131, R135). -/
theorem Body.Inv.construct (h : b.Inv) {esz n base : Word w} {owned : Bool} (hs : GoodShape esz n)
    (ho : owned = true → (base.toNat, n.toNat * esz.toNat) ∈ b.oracle.live) :
    (b.construct esz n base owned).Inv where
  memory := h.memory
  unconstructed hn := by cases hn
  constructed _ := {
    capacity := hs.capacity
    bigMask := bigMask_toNat hs.capacity
    smallMask := smallMask_toNat hs.capacity
    elementSize := hs.elementSize
    storageFits := hs.storageFits
    writeIndex := by simp [Body.construct]
    readIndex := by simp [Body.construct] }
  liveApart := h.liveApart
  liveFits := h.liveFits
  ownedLive := ho

/-- DESTROY clears every register (R254) and gives at most a live region back. -/
theorem Body.Inv.destroyed (h : b.Inv) : b.releaseStorage.unconstruct.Inv := by
  obtain ⟨live, hlive, hrel⟩ := releaseStorage_eq b
  rw [hrel]
  exact {
    memory := h.memory
    unconstructed := fun _ => ⟨rfl, rfl, rfl, rfl, rfl, rfl, rfl, rfl⟩
    constructed := fun hk => by cases hk
    liveApart := h.liveApart.sublist hlive
    liveFits := fun r hr => h.liveFits r (hlive.subset hr)
    ownedLive := fun ho => by cases ho }

theorem GoodShape.storage_pos {esz n : Word w} (h : GoodShape esz n) :
    0 < n.toNat * esz.toNat := by
  obtain ⟨k, hk, -⟩ := exists_two_pow_of_isPow2 h.capacity
  exact Nat.mul_pos (hk ▸ Nat.two_pow_pos k) h.elementSize

theorem Body.Runs.inv {i : Instr} (h : b.Runs i c) (hi : b.Inv) : c.Inv := by
  cases h with
  | responds => exact hi
  | constructsOwned _ _ hs ha =>
    refine (hi.granted hs.storage_pos ha).construct hs fun _ => ?_
    obtain ⟨-, _, _, rfl⟩ := allocRequest_some ha
    exact List.mem_cons_self
  | constructsBorrowed _ _ _ hs => exact (hi.recordIf _ _).construct hs (fun ho => by cases ho)
  | flushes => exact (hi.recordIf _ _).emptied
  | destroys => exact (hi.recordIf _ _).destroyed
  | advancesWrite n => exact (hi.recordIf _ _).append n _ _
  | advancesRead n => exact (hi.recordIf _ _).take n _ _
  | _ => exact hi.of_same (SameRegisters.refl b) rfl rfl rfl rfl

theorem Body.Acts.inv {m : Move w} (h : b.Acts m c) (hi : b.Inv) : c.Inv := by
  cases h with
  | publishesWrite =>
    exact (hi.of_same (c := b.quiesce .writer) (SameRegisters.refl b) rfl rfl rfl rfl).append _ _ _
  | publishesRead =>
    exact (hi.of_same (c := b.quiesce .reader) (SameRegisters.refl b) rfl rfl rfl rfl).take _ _ _
  | accepts _ _ h => exact h.inv (hi.alike (b.alike_accept _))
  | _ => exact hi.of_same (SameRegisters.refl b) rfl rfl rfl rfl

/-- Settles O51: the exact change of an agent's step keeps the invariant, and so does what it leaves
open. -/
theorem stepKeepsTheInvariant : Obligations.StepKeepsTheInvariant := by
  intro w b b' hi h
  refine step_rel (R := fun b d => b.Inv → d.Inv) h id (fun m rest _ hi => ?_) hi
  obtain ⟨c, hc, ha⟩ := moved_acts { b with sched := rest } m
  exact (hc.inv (hi.alike (b.alike_sched rest))).alike ha

end Sys2Proof.Machine
end

section
/-! The contract invariant of unfaulted states (R45, R47) is kept by every step: where the step
records no fault, each exact change of `Body.Runs` and `Body.Acts` keeps it. -/

namespace Sys2Proof.Machine

variable {w : Width} {b c : Body w}

/-! ### The query unit in an unfaulted state -/

/-- `Q_RA` is the filled count (R168): the masked difference of the indices is that of the logical
indices modulo `2*CAP`, and the filled count is below that. -/
theorem qRA_toNat_eq_filled (hi : b.Inv) (hc : b.Clean) (hk : b.constructed = true) :
    b.qRA.toNat = b.filled := by
  have hcfg := hi.constructed hk
  obtain ⟨hle, hfill⟩ := hc.ordered hk
  obtain ⟨k, hcap, hdvd⟩ := exists_two_pow_of_isPow2 hcfg.capacity
  have hpos : 0 < b.cap.toNat := hcap ▸ Nat.two_pow_pos k
  have hlog : b.ghost.wlog = b.ghost.rlog + b.filled := by rw [Body.filled]; omega
  have hridx : b.ridx.toNat < w.size := b.ridx.isLt
  have hmod : w.size - b.ridx.toNat + b.widx.toNat ≡ b.filled [MOD 2 * b.cap.toNat] := by
    refine Nat.ModEq.add_right_cancel' b.ridx.toNat ?_
    calc w.size - b.ridx.toNat + b.widx.toNat + b.ridx.toNat
        = w.size + b.widx.toNat := by omega
      _ ≡ 0 + b.widx.toNat [MOD 2 * b.cap.toNat] := (Nat.modEq_zero_iff_dvd.2 hdvd).add_right _
      _ = b.ghost.wlog % (2 * b.cap.toNat) := by rw [Nat.zero_add, hcfg.writeIndex]
      _ ≡ b.ghost.wlog [MOD 2 * b.cap.toNat] := Nat.mod_modEq _ _
      _ = b.filled + b.ghost.rlog := by rw [hlog, Nat.add_comm]
      _ ≡ b.filled + b.ridx.toNat [MOD 2 * b.cap.toNat] := by
        rw [hcfg.readIndex]
        exact (Nat.mod_modEq _ _).symm.add_left _
  rw [Body.qRA, if_pos hk, hcfg.toNat_and_bmask, BitVec.toNat_sub, Nat.mod_mod_of_dvd _ hdvd]
  exact Eq.trans hmod (Nat.mod_eq_of_lt (by omega))

/-- `Q_WA` is the free count (R168). -/
theorem qWA_toNat_eq_free (hi : b.Inv) (hc : b.Clean) (hk : b.constructed = true) :
    b.qWA.toNat = b.cap.toNat - b.filled := by
  have hfill := (hc.ordered hk).2
  have hra := qRA_toNat_eq_filled hi hc hk
  rw [Body.qWA, if_pos hk, BitVec.toNat_sub_of_le (by rw [BitVec.le_def]; omega), hra]

/-! ### A busy machine's share -/

/-- A machine keeps its share where more of the ring is available to it. -/
theorem PortMachine.Busy.mono {m : PortMachine w} {avail avail' grant : Nat} {zc : Bool}
    (h : m.Busy b avail grant zc) (hle : avail ≤ avail') : m.Busy b avail' grant zc :=
  { h with count := h.count.trans hle }

/-- A machine just loaded with available elements and a buffer that is not bad has its share (R190).
-/
theorem busy_start {n buf : Word w} {avail : Nat} (hk : b.constructed = true) (hn : n.toNat ≤ avail)
    (hbad : b.badBuffer buf (n.toNat * b.esz.toNat) = false) :
    (PortMachine.start n buf b.esz).Busy b avail 0 false where
  constructed := hk
  count := hn
  noGrant := rfl
  noZeroCopy := rfl
  buffer := hbad
  copying hs := by
    by_contra hlt
    simp only [PortMachine.start] at hs hlt
    rw [if_neg (by simpa using hlt)] at hs
    cases hs
  publishing hs := by
    by_contra hne
    simp only [PortMachine.start] at hs hne
    rw [if_pos (Nat.pos_of_ne_zero fun h0 => hne (by simp [h0]))] at hs
    cases hs

/-- A machine in `COPY` keeps its share over one byte (R191): its count stays exact because the
transfer is no longer than the storage. -/
theorem PortMachine.Busy.moved {m : PortMachine w} {avail grant : Nat} {zc : Bool}
    (h : m.Busy b avail grant zc) (hs : m.st = .copy) (hfit : m.n.toNat * b.esz.toNat < w.size) :
    (m.moved b.esz).Busy b avail grant zc := by
  have hlt := h.copying hs
  have hk : (m.k + 1).toNat = m.k.toNat + 1 := toNat_add_one (by omega)
  refine { h with copying := fun hs' => ?_, publishing := fun hs' => ?_ } <;>
    simp only [PortMachine.moved, hk] at hs' ⊢ <;> split_ifs at hs' <;> omega

/-! ### The exact changes -/

theorem Body.Clean.alike (h : b.Clean) (ha : b.Alike c) : c.Clean :=
  clean_congr h ha.config ha.machines (by rw [ha.ghost]) (by rw [ha.ghost]) (by rw [ha.ghost])
    (by rw [ha.ghost]) (by rw [ha.ghost]) (by rw [ha.ghost])

theorem Body.Clean.recordIf (h : b.Clean) (cond : Bool) (x : MFault) : (b.recordIf cond x).Clean :=
  clean_congr h (SameConfig.refl b) ⟨rfl, rfl⟩ rfl rfl rfl rfl rfl rfl

/-- A block whose machines are `IDLE` and whose logical indices and grants are 0 is clean. -/
theorem clean_of_idle {faults : FaultSet} (hw : b.writer.st = .idle) (hr : b.reader.st = .idle)
    (hg : b.ghost = ⟨0, 0, 0, 0, false, false, faults⟩)
    (hbase : b.constructed = true → b.base.toNat + b.storageBytes ≤ w.size) : b.Clean where
  ordered _ := by simp [Body.filled, hg]
  grants _ := by simp [hg]
  unwrapped := hbase
  writing hb := absurd hw hb
  reading hb := absurd hr hb

/-- The machines of an unconstructed block are `IDLE`. -/
theorem Body.Clean.idle_of_unconstructed (h : b.Clean) (hn : b.constructed = false) :
    b.writer.st = .idle ∧ b.reader.st = .idle := by
  constructor <;> by_contra hb
  · exact Bool.false_ne_true (hn.symm.trans (h.writing hb).constructed)
  · exact Bool.false_ne_true (hn.symm.trans (h.reading hb).constructed)

/-- Nothing is in flight where the machines are `IDLE` and no zero-copy transfer is open (R251). -/
theorem idle_of_inFlight (h : b.inFlight = false) : b.writer.st = .idle ∧ b.reader.st = .idle := by
  simp only [Body.inFlight, Bool.or_eq_false_iff, decide_eq_false_iff_not, not_not] at h
  exact h.1.1

/-- The idle writer is granted part of the free space (R45). -/
theorem Body.Clean.setWriteGrant (h : b.Clean) (hidle : b.writer.st = .idle) {n : Nat} (zc : Bool)
    (hn : n ≤ b.cap.toNat - b.filled) : (b.setWriteGrant n zc).Clean where
  ordered := h.ordered
  grants hk := ⟨hn, (h.grants hk).2⟩
  unwrapped := h.unwrapped
  writing hb := absurd hidle hb
  reading hb := busy_congr (h.reading hb) (SameConfig.refl b)

/-- The idle reader is granted part of the filled space (R45). -/
theorem Body.Clean.setReadGrant (h : b.Clean) (hidle : b.reader.st = .idle) {n : Nat} (zc : Bool)
    (hn : n ≤ b.filled) : (b.setReadGrant n zc).Clean where
  ordered := h.ordered
  grants hk := ⟨(h.grants hk).1, hn⟩
  unwrapped := h.unwrapped
  writing hb := busy_congr (h.writing hb) (SameConfig.refl b)
  reading hb := absurd hidle hb

/-- WRITE loads the writer machine with free elements and takes the grant away (R190). -/
theorem Body.Clean.startWrite (h : b.Clean) (hk : b.constructed = true) {n src : Word w}
    (hn : n.toNat ≤ b.cap.toNat - b.filled)
    (hbad : b.badBuffer src (n.toNat * b.esz.toNat) = false) : (b.startWrite n src).Clean where
  ordered := h.ordered
  grants hk := ⟨Nat.zero_le _, (h.grants hk).2⟩
  unwrapped := h.unwrapped
  writing _ := busy_congr (busy_start hk hn hbad) (SameConfig.refl b)
  reading hb := busy_congr (h.reading hb) (SameConfig.refl b)

/-- READ loads the reader machine with filled elements and takes the grant away (R195). -/
theorem Body.Clean.startRead (h : b.Clean) (hk : b.constructed = true) {n dst : Word w}
    (hn : n.toNat ≤ b.filled)
    (hbad : b.badBuffer dst (n.toNat * b.esz.toNat) = false) : (b.startRead n dst).Clean where
  ordered := h.ordered
  grants hk := ⟨(h.grants hk).1, Nat.zero_le _⟩
  unwrapped := h.unwrapped
  writing hb := busy_congr (h.writing hb) (SameConfig.refl b)
  reading _ := busy_congr (busy_start hk hn hbad) (SameConfig.refl b)

/-- Free elements appended by the idle writer are no longer granted, and the reader keeps its share.
-/
theorem Body.Clean.append (h : b.Clean) (hk : b.constructed = true) (hidle : b.writer.st = .idle)
    {n : Word w} {grant : Nat} (zc : Bool) (hn : n.toNat + grant ≤ b.cap.toNat - b.filled) :
    (b.append n grant zc).Clean := by
  obtain ⟨hle, hfill⟩ := h.ordered hk
  have hfilled : (b.append n grant zc).filled = b.filled + n.toNat := by
    simp only [Body.filled, Body.append]
    omega
  refine ⟨fun _ => ⟨?_, ?_⟩, fun _ => ⟨?_, ?_⟩, h.unwrapped, fun hb => absurd hidle hb,
    fun hb => ?_⟩
  · exact hle.trans (Nat.le_add_right _ _)
  · show _ ≤ b.cap.toNat
    omega
  · show grant ≤ b.cap.toNat - _
    omega
  · have := (h.grants hk).2
    show b.ghost.rgrant ≤ _
    omega
  · exact (busy_congr (c := b.append n grant zc) (h.reading hb) (SameConfig.refl b)).mono (by omega)

/-- Filled elements taken by the idle reader are no longer granted, and the writer keeps its share.
-/
theorem Body.Clean.take (h : b.Clean) (hk : b.constructed = true) (hidle : b.reader.st = .idle)
    {n : Word w} {grant : Nat} (zc : Bool) (hn : n.toNat + grant ≤ b.filled) :
    (b.take n grant zc).Clean := by
  obtain ⟨hle, hfill⟩ := h.ordered hk
  have hfilled : (b.take n grant zc).filled = b.filled - n.toNat := by
    simp only [Body.filled, Body.take]
    omega
  have hlog : b.filled = b.ghost.wlog - b.ghost.rlog := rfl
  refine ⟨fun _ => ⟨?_, ?_⟩, fun _ => ⟨?_, ?_⟩, h.unwrapped, fun hb => ?_,
    fun hb => absurd hidle hb⟩
  · show b.ghost.rlog + n.toNat ≤ b.ghost.wlog
    omega
  · show _ ≤ b.cap.toNat
    omega
  · have := (h.grants hk).1
    show b.ghost.wgrant ≤ b.cap.toNat - _
    omega
  · show grant ≤ _
    omega
  · refine (busy_congr (c := b.take n grant zc) (h.writing hb) (SameConfig.refl b)).mono ?_
    show _ ≤ b.cap.toNat - _
    omega

/-- An advance that is no overcommit publishes granted elements (R225). -/
theorem le_wgrant_of_excessWrite {n : Word w} (h : b.excessWrite n = false) :
    n.toNat ≤ b.ghost.wgrant := by
  rw [Body.excessWrite, Bool.or_eq_false_iff, decide_eq_false_iff_not] at h
  exact not_lt.1 h.1

/-- An advance that is no overcommit takes granted elements (R233). -/
theorem le_rgrant_of_excessRead {n : Word w} (h : b.excessRead n = false) :
    n.toNat ≤ b.ghost.rgrant := by
  rw [Body.excessRead, Bool.or_eq_false_iff, decide_eq_false_iff_not] at h
  exact not_lt.1 h.1

/-! ### Commands and agents' steps -/

/-- The machine of the port that accepts a command is `IDLE` (R105). -/
theorem portIdle_accept {p : PortId} (h : b.ready p = true) :
    (b.accept p).portIdle (b.accept p).active = true := by
  obtain ⟨-, hidle⟩ := (Bool.and_eq_true _ _).mp h
  cases p <;> exact hidle

/-- A command accepted where its port's machine is `IDLE` (R105) keeps the contract invariant. -/
theorem Body.Runs.clean {i : Instr} (h : b.Runs i c) (hi : b.Inv) (hc : b.Clean)
    (hidle : b.portIdle b.active = true) (hf : c.ghost.faults = .empty) : c.Clean := by
  have hwriter (hp : b.active = .writer) : b.writer.st = .idle := by
    simpa [hp, Body.portIdle] using hidle
  have hreader (hp : b.active = .reader) : b.reader.st = .idle := by
    simpa [hp, Body.portIdle] using hidle
  cases h with
  | responds => exact hc
  | constructsOwned _ hn _ ha =>
    obtain ⟨hgrant, _, _, rfl⟩ := allocRequest_some ha
    obtain ⟨hw, hr⟩ := hc.idle_of_unconstructed hn
    rw [Oracle.mayGrant, Bool.and_eq_true, decide_eq_true_iff] at hgrant
    exact clean_of_idle hw hr rfl fun _ => hgrant.1
  | @constructsBorrowed esz nbytes addr _ hn hz =>
    obtain ⟨hw, hr⟩ := hc.idle_of_unconstructed hn
    obtain ⟨hwrap, -⟩ := recordIf_empty hf
    have hle := quotient_mul_le (nbytes := nbytes) hz
    have hlt : addr.toNat < w.size := addr.isLt
    have hfit : 0 < nbytes.toNat → addr.toNat + nbytes.toNat ≤ w.size := by
      simpa [rangeWraps] using hwrap
    refine clean_of_idle hw hr rfl fun _ => ?_
    show addr.toNat + (quotient nbytes esz).toNat * esz.toNat ≤ w.size
    omega
  | flushes =>
    obtain ⟨hw, hr⟩ := idle_of_inFlight (recordIf_empty hf).1
    exact clean_of_idle hw hr rfl hc.unwrapped
  | destroys =>
    obtain ⟨_, -, hrel⟩ := releaseStorage_eq (b.recordIf b.inFlight .destroyInFlight)
    rw [hrel] at hf ⊢
    obtain ⟨hw, hr⟩ := idle_of_inFlight (recordIf_empty hf).1
    exact clean_of_idle hw hr rfl fun hk => by cases hk
  | grantsWrite zc hp hk hn =>
    exact hc.setWriteGrant (hwriter hp) zc (qWA_toNat_eq_free hi hc hk ▸ hn)
  | grantsRead zc hp hk hn =>
    exact hc.setReadGrant (hreader hp) zc (qRA_toNat_eq_filled hi hc hk ▸ hn)
  | startsWrite src _ hk hn =>
    obtain ⟨hbad, -⟩ := recordIf_empty (b := b.setWriteGrant 0 false) hf
    exact hc.startWrite hk (qWA_toNat_eq_free hi hc hk ▸ hn) hbad
  | startsRead dst _ hk hn =>
    obtain ⟨hbad, -⟩ := recordIf_empty (b := b.setReadGrant 0 false) hf
    exact hc.startRead hk (qRA_toNat_eq_filled hi hc hk ▸ hn) hbad
  | advancesWrite n hp hk =>
    have hgrant := le_wgrant_of_excessWrite (recordIf_empty hf).1
    have hfree := (hc.grants hk).1
    exact (hc.recordIf _ _).append hk (hwriter hp) _
      (by rw [Nat.add_sub_cancel' hgrant]; exact hfree)
  | advancesRead n hp hk =>
    have hgrant := le_rgrant_of_excessRead (recordIf_empty hf).1
    have hfilled := (hc.grants hk).2
    exact (hc.recordIf _ _).take hk (hreader hp) _
      (by rw [Nat.add_sub_cancel' hgrant]; exact hfilled)

/-- A transfer of at most `CAP` elements is no longer than the storage. -/
theorem Body.Inv.transferFits (hi : b.Inv) (hk : b.constructed = true) {n : Nat}
    (hn : n ≤ b.cap.toNat) : n * b.esz.toNat < w.size :=
  (Nat.mul_le_mul_right _ hn).trans_lt (hi.constructed hk).storageFits

/-- A block is clean with one machine put to `IDLE`. -/
theorem Body.Clean.quiesce (h : b.Clean) (p : PortId) : (b.quiesce p).Clean := by
  cases p with
  | writer =>
    exact ⟨h.ordered, h.grants, h.unwrapped, fun hb => absurd rfl hb,
      fun hb => busy_congr (h.reading hb) (SameConfig.refl b)⟩
  | reader =>
    exact ⟨h.ordered, h.grants, h.unwrapped,
      fun hb => busy_congr (h.writing hb) (SameConfig.refl b), fun hb => absurd rfl hb⟩
  | control => exact h

theorem Body.Clean.copyWrite (h : b.Clean) (hi : b.Inv) (hs : b.writer.st = .copy) :
    ({ b with writer := b.writer.moved b.esz } : Body w).Clean := by
  have hbusy := h.writing (by rw [hs]; decide)
  have hfit := hi.transferFits hbusy.constructed (hbusy.count.trans (Nat.sub_le _ _))
  exact ⟨h.ordered, h.grants, h.unwrapped,
    fun _ => busy_congr (hbusy.moved hs hfit) (SameConfig.refl b),
    fun hb => busy_congr (h.reading hb) (SameConfig.refl b)⟩

theorem Body.Clean.copyRead (h : b.Clean) (hi : b.Inv) (hs : b.reader.st = .copy) :
    ({ b with reader := b.reader.moved b.esz } : Body w).Clean := by
  have hbusy := h.reading (by rw [hs]; decide)
  have hfit := hi.transferFits hbusy.constructed
    (hbusy.count.trans (h.ordered hbusy.constructed).2)
  exact ⟨h.ordered, h.grants, h.unwrapped,
    fun hb => busy_congr (h.writing hb) (SameConfig.refl b),
    fun _ => busy_congr (hbusy.moved hs hfit) (SameConfig.refl b)⟩

theorem Body.Acts.clean {m : Move w} (h : b.Acts m c) (hi : b.Inv) (hc : b.Clean)
    (hf : c.ghost.faults = .empty) : c.Clean := by
  cases h with
  | keeps => exact hc
  | accesses => exact hc.recordIf _ _
  | copiesWrite hs => exact hc.copyWrite hi hs
  | copiesRead hs => exact hc.copyRead hi hs
  | publishesWrite hs =>
    have hbusy := hc.writing (by rw [hs]; decide)
    exact (hc.quiesce .writer).append hbusy.constructed rfl _
      (by rw [hbusy.noGrant]; exact hbusy.count)
  | publishesRead hs =>
    have hbusy := hc.reading (by rw [hs]; decide)
    exact (hc.quiesce .reader).take hbusy.constructed rfl _
      (by rw [hbusy.noGrant]; exact hbusy.count)
  | @accepts p _ _ hready _ h =>
    have ha := b.alike_accept p
    exact h.clean (hi.alike ha) (hc.alike ha) (portIdle_accept hready) hf

theorem FaultSet.eq_empty_iff {f : FaultSet} : f = .empty ↔ ∀ x, f.has x = false := by
  refine ⟨fun h x => by subst h; cases x <;> rfl, fun h => ?_⟩
  obtain ⟨f1, f2, f3, f4, f5, f6, f7⟩ := f
  rw [FaultSet.empty, FaultSet.mk.injEq]
  exact ⟨h .overcommitWrite, h .overcommitRead, h .flushInFlight, h .destroyInFlight,
    h .storageAccess, h .bufferOverlap, h .regionWrap⟩

/-- A step to an unfaulted state was taken in one. -/
theorem Body.Acts.unfaulted {m : Move w} (h : b.Acts m c) (hf : c.ghost.faults = .empty) :
    b.ghost.faults = .empty :=
  FaultSet.eq_empty_iff.2 fun x => Bool.eq_false_iff.2 fun hx =>
    Bool.eq_false_iff.1 (FaultSet.eq_empty_iff.1 hf x) (h.faults_mono hx)

theorem Body.Sound.alike (h : b.Sound) (ha : b.Alike c) : c.Sound :=
  ⟨h.inv.alike ha, fun hf => (h.clean (ha.ghost ▸ hf)).alike ha⟩

theorem Body.Acts.sound {m : Move w} (h : b.Acts m c) (hs : b.Sound) : c.Sound :=
  ⟨h.inv hs.inv, fun hf => h.clean hs.inv (hs.clean (h.unfaulted hf)) hf⟩

/-- Settles O52: where an agent's step records no fault, there was none before it, and its exact
change keeps the contract invariant. -/
theorem stepKeepsTheContractInvariant : Obligations.StepKeepsTheContractInvariant := by
  intro w b b' hs h
  refine step_rel (R := fun b d => b.Sound → d.Sound) h id (fun m rest _ hs => ?_) hs
  obtain ⟨c, hc, ha⟩ := moved_acts { b with sched := rest } m
  exact (hc.sound (hs.alike (b.alike_sched rest))).alike ha

end Sys2Proof.Machine
end

section
/-! Where a byte of memory changes (R79): in a copy step, at its address; in a client's store, at
its address; and in the storage NEW is granted. No other step writes the memory. -/

namespace Sys2Proof.Machine

variable {w : Width} {b : Body w} {a : Nat}

/-! ### Bytes stored one at a time -/

theorem mem_ne_of_changes {c : Body w} (h : memRead c.mem a ≠ memRead b.mem a) : c.mem ≠ b.mem :=
  fun hm => h (by rw [hm])

/-- A byte that changes over a store is the one stored. -/
theorem eq_of_putByte_changes {x : Word w} {v : Byte}
    (h : memRead (b.putByte x v).mem a ≠ memRead b.mem a) : a = x.toNat :=
  by_contra fun hne => h (memRead_memWrite_other v hne)

/-- The writer machine changes a byte in its copy step only, where the transfer stands. -/
theorem writerStep_changes (h : memRead (b.machineStep .writer).mem a ≠ memRead b.mem a) :
    b.writer.st = .copy ∧ a = (b.transferAddr b.widx b.writer.k).toNat := by
  cases hs : b.writer.st <;> simp only [Body.machineStep, hs] at h
  case idle => exact absurd rfl h
  case copy => exact ⟨rfl, eq_of_putByte_changes h⟩
  case publish => exact absurd (Body.respondOn_mem ..) (mem_ne_of_changes h)

/-- The reader machine changes a byte in its copy step only, in the client's buffer. -/
theorem readerStep_changes (h : memRead (b.machineStep .reader).mem a ≠ memRead b.mem a) :
    b.reader.st = .copy ∧ a = (b.reader.buf + b.reader.k).toNat := by
  cases hs : b.reader.st <;> simp only [Body.machineStep, hs] at h
  case idle => exact absurd rfl h
  case copy => exact ⟨rfl, eq_of_putByte_changes h⟩
  case publish => exact absurd (Body.respondOn_mem ..) (mem_ne_of_changes h)

/-! ### The commands' rules that write no memory -/

theorem command_mem (i : Instr) {rule : Body w} (h : rule.mem = b.mem) :
    (b.command i rule).mem = b.mem := by
  rcases command_cases b i rule with hr | ⟨-, hr⟩ <;> rw [hr]
  · exact Body.raise_mem ..
  · exact h

theorem constructedCommand_mem (i : Instr) {rule : Body w} (h : rule.mem = b.mem) :
    (b.constructedCommand i rule).mem = b.mem := by
  rcases constructedCommand_cases b i rule with hr | hr | ⟨-, -, hr⟩ <;> rw [hr]
  · exact Body.raise_mem ..
  · exact Body.raise_mem ..
  · exact h

theorem newWithStorage_mem (esz addr nbytes : Word w) :
    (b.newWithStorage esz addr nbytes).mem = b.mem := by
  unfold Body.newWithStorage
  split_ifs
  iterate 4 exact Body.raise_mem ..
  exact Body.ok_mem ..

theorem destroy_mem : b.destroy.mem = b.mem := by
  obtain ⟨_, -, hrel⟩ := releaseStorage_eq (b.recordIf b.inFlight .destroyInFlight)
  rw [Body.destroy, hrel]
  exact Body.ok_mem ..

theorem readReg_mem (k : Word w) : (b.readReg k).mem = b.mem := by
  unfold Body.readReg
  split
  · exact Body.ok_mem ..
  · exact Body.raise_mem ..

theorem writeAvailable_mem : b.writeAvailable.mem = b.mem := by
  unfold Body.writeAvailable
  split_ifs <;> exact Body.ok_mem ..

theorem readAvailable_mem : b.readAvailable.mem = b.mem := by
  unfold Body.readAvailable
  split_ifs <;> exact Body.ok_mem ..

theorem acceptWrite_mem (src nbytes count : Word w) :
    (b.acceptWrite src nbytes count).mem = b.mem := by
  unfold Body.acceptWrite
  split_ifs
  iterate 2 exact Body.raise_mem ..
  rfl

theorem acceptReadInto_mem (dst nbytes : Word w) : (b.acceptReadInto dst nbytes).mem = b.mem := by
  unfold Body.acceptReadInto
  split_ifs
  · exact Body.raise_mem ..
  · rfl

/-- Every command but NEW leaves the memory as it is (R137, R252). -/
theorem effect_mem {i : Instr} (hi : i ≠ .new) : (b.effect i).mem = b.mem := by
  cases i with
  | new => exact absurd rfl hi
  | newWithStorage => exact command_mem _ (newWithStorage_mem ..)
  | destroy => exact constructedCommand_mem _ destroy_mem
  | readReg => exact constructedCommand_mem _ (readReg_mem _)
  | writeAvailable => exact constructedCommand_mem _ writeAvailable_mem
  | readAvailable => exact constructedCommand_mem _ readAvailable_mem
  | write => exact constructedCommand_mem _ (acceptWrite_mem ..)
  | read => exact constructedCommand_mem _ rfl
  | readInto => exact constructedCommand_mem _ (acceptReadInto_mem ..)
  | getWriteRegions => exact constructedCommand_mem _ (Body.respondOn_mem ..)
  | getReadRegions => exact constructedCommand_mem _ (Body.respondOn_mem ..)
  | _ => exact constructedCommand_mem _ (Body.ok_mem ..)

/-! ### NEW -/

/-- A request that is not served leaves the memory as it is (R10). -/
theorem allocRequest_none_mem {n : Nat} {c : Body w} (ha : b.allocRequest n = (c, none)) :
    c.mem = b.mem := by
  rcases allocRequest_cases b n with ⟨_, h'⟩ | ⟨_, _, _, -, -, h'⟩ <;> rw [ha] at h' <;> cases h'
  rfl

/-- A byte that changes over a served request lies in the granted region (R10). -/
theorem allocRequest_changes {n : Nat} {c : Body w} {base : Word w}
    (ha : b.allocRequest n = (c, some base)) (h : memRead c.mem a ≠ memRead b.mem a) :
    ∃ x : Word w, a = x.toNat ∧ (x - base).toNat < n := by
  rcases allocRequest_cases b n with ⟨_, h'⟩ | ⟨base', bytes, _, -, hg, h'⟩ <;> rw [h'] at ha
  · cases ha
  cases ha
  obtain ⟨hfit, -⟩ : base.toNat + n ≤ w.size ∧ _ := by simpa [Oracle.mayGrant] using hg
  have hlen : (bytes.take n).length ≤ n := List.length_take_le ..
  have hin : base.toNat ≤ a ∧ a < base.toNat + (bytes.take n).length := by
    by_contra hout
    exact h (memRead_memOverlay_outside base _ (by omega) hout)
  have hx : (BitVec.ofNat w.bits a).toNat = a := Nat.mod_eq_of_lt (show a < w.size by omega)
  exact ⟨.ofNat _ a, hx.symm, by rw [BitVec.toNat_sub_of_le (by rw [BitVec.le_def]; omega)]; omega⟩

/-- The storage of a constructed block (R72). -/
theorem inStorage_iff {x : Word w} : b.inStorage x = true ↔
    b.constructed = true ∧ (x - b.base).toNat < b.cap.toNat * b.esz.toNat := by
  rw [Body.inStorage, Bool.and_eq_true, decide_eq_true_iff, Body.storageBytes]

/-- A byte that changes over NEW lies in the storage of the block it constructs. -/
theorem new_changes {esz n : Word w} (h : memRead (b.new esz n).mem a ≠ memRead b.mem a) :
    b.constructed = false ∧ ∃ x : Word w, a = x.toNat ∧ (b.new esz n).inStorage x = true := by
  unfold Body.new at h ⊢
  split_ifs at h ⊢ with hc
  iterate 4 exact absurd (Body.raise_mem ..) (mem_ne_of_changes h)
  rcases ha : b.allocRequest (n.toNat * esz.toNat) with ⟨c, base | base⟩ <;> rw [ha] at h
  · exact absurd ((Body.raise_mem ..).trans (allocRequest_none_mem ha)) (mem_ne_of_changes h)
  · rw [Body.newGranted, Body.ok_mem] at h
    obtain ⟨x, hx, hlt⟩ := allocRequest_changes ha h
    refine ⟨by simpa using hc, x, hx, inStorage_iff.2 ?_⟩
    simpa [Body.newGranted, Body.construct] using hlt

/-- A byte that changes over a command changes in NEW accepted on port C, and lies in the storage of
the block it constructs. -/
theorem effect_changes {i : Instr} (h : memRead (b.effect i).mem a ≠ memRead b.mem a) :
    i = .new ∧ b.active = .control ∧ b.constructed = false ∧
      ∃ x : Word w, a = x.toNat ∧ (b.effect i).inStorage x = true := by
  obtain rfl : i = .new := by_contra fun hi => h (by rw [effect_mem hi])
  rw [Body.effect] at h ⊢
  rcases command_cases b .new (b.new b.opa b.opb) with hr | ⟨hp, hr⟩ <;> rw [hr] at h ⊢
  · exact absurd (Body.raise_mem ..) (mem_ne_of_changes h)
  · exact ⟨rfl, List.mem_singleton.1 hp, new_changes h⟩

/-! ### Agents' steps -/

theorem present_mem (p : PortId) (c : Command w) : (b.present p c).mem = b.mem := by
  unfold Body.present
  split_ifs
  · rfl
  · exact Body.setPort_mem ..

theorem clientLoad_mem (p : PortId) (x : Word w) : (b.clientLoad p x).mem = b.mem :=
  Body.setPort_mem ..

theorem accept_mem (p : PortId) : (b.accept p).mem = b.mem := Body.setPort_mem ..

/-- A byte that changes over an acceptance changes in NEW, accepted on port C. -/
theorem accept_changes {p : PortId} (h : memRead (b.moved (.accept p)).mem a ≠ memRead b.mem a) :
    p = .control ∧ b.portC.lines.word = encode .new ∧ b.constructed = false ∧
      ∃ x : Word w, a = x.toNat ∧ (b.moved (.accept p)).inStorage x = true := by
  rw [Body.moved] at h ⊢
  split_ifs at h ⊢
  case neg => exact absurd rfl h
  rw [Body.accepted, ← accept_mem (b := b) p] at h
  rw [Body.accepted]
  cases hd : decode (b.port p).lines.word with
  | ok i =>
    rw [hd] at h
    obtain ⟨rfl, hp, hc, hx⟩ := effect_changes h
    obtain rfl : p = .control := hp
    exact ⟨rfl, eq_encode_of_decode hd, (b.alike_accept _).config.constructed ▸ hc, hx⟩
  | error e =>
    rw [hd] at h
    exact absurd (Body.raise_mem ..) (mem_ne_of_changes h)

/-- Settles O57: each kind of move changes bytes only as its own lemma says. -/
theorem memoryChangesOnlyInCopiesStoresAndGrants :
    Obligations.MemoryChangesOnlyInCopiesStoresAndGrants := by
  intro w b b' a h hne
  rw [step_inv b h] at hne ⊢
  cases hs : b.sched with
  | nil => exact absurd (by rw [stepped_nil b hs]) hne
  | cons m rest =>
    rw [stepped_cons b hs] at hne ⊢
    rw [List.head?_cons]
    cases m with
    | present p c => exact absurd (present_mem ..) (mem_ne_of_changes hne)
    | load p x => exact absurd (clientLoad_mem ..) (mem_ne_of_changes hne)
    | store p x v => exact .inr (.inr (.inl ⟨p, x, v, rfl, eq_of_putByte_changes hne⟩))
    | machine d =>
      cases d with
      | writer => exact .inl ⟨rfl, writerStep_changes (b := { b with sched := rest }) hne⟩
      | reader => exact .inr (.inl ⟨rfl, readerStep_changes (b := { b with sched := rest }) hne⟩)
    | accept p =>
      obtain ⟨rfl, hword, hc, x, hx, hin⟩ := accept_changes hne
      obtain ⟨hc', hlt⟩ := inStorage_iff.1 hin
      exact .inr (.inr (.inr ⟨rfl, hword, hc, hc', x, hx, hlt⟩))

end Sys2Proof.Machine
end

section
/-! Where a byte of a transfer stands among the logical elements (R72, R190, R195), and that a
writer copy step in an unfaulted state reaches none the reader can still read (R91). -/

namespace Sys2Proof.Machine

variable {w : Width} {b : Body w}

/-! ### Addresses of element bytes -/

/-- The address of byte `k` of logical element `i` (R72). -/
def Body.elementAddr (b : Body w) (i k : Nat) : Nat :=
  (b.base.toNat + i % b.cap.toNat * b.esz.toNat + k) % w.size

theorem elementByte_eq (i k : Nat) : b.elementByte i k = memRead b.mem (b.elementAddr i k) := rfl

theorem Body.Configured.cap_pos (h : b.Configured) : 0 < b.cap.toNat := by
  obtain ⟨k, hk, -⟩ := exists_two_pow_of_isPow2 h.capacity
  exact hk ▸ Nat.two_pow_pos k

/-- `Slot` takes an index modulo the capacity (R161). -/
theorem Body.Configured.slot_toNat (h : b.Configured) (i : Word w) :
    (b.slot i).toNat = i.toNat % b.cap.toNat := by
  obtain ⟨k, hk, -⟩ := exists_two_pow_of_isPow2 h.capacity
  rw [hk]
  exact toNat_and_mask i _ k (by rw [h.smallMask, hk])

/-- The slot of an index that follows a logical index, `n` elements on. -/
theorem Body.Configured.slot_add_toNat (h : b.Configured) {i : Word w} {log : Nat}
    (hi : i.toNat = log % (2 * b.cap.toNat)) (n : Word w) :
    (b.slot (i + n)).toNat = (log + n.toNat) % b.cap.toNat := by
  obtain ⟨-, -, hdvd⟩ := exists_two_pow_of_isPow2 h.capacity
  have hcap : b.cap.toNat ∣ 2 * b.cap.toNat := Dvd.intro_left 2 rfl
  rw [h.slot_toNat, BitVec.toNat_add, Nat.mod_mod_of_dvd _ (hcap.trans hdvd), hi, Nat.add_mod,
    Nat.mod_mod_of_dvd _ hcap, ← Nat.add_mod]

/-- Byte `j` of a transfer is byte `j mod ESZ` of the element `j / ESZ` after the first (R190,
R195). -/
theorem Body.Configured.transferAddr_toNat (h : b.Configured) {i : Word w} {log : Nat}
    (hi : i.toNat = log % (2 * b.cap.toNat)) (j : Word w) :
    (b.transferAddr i j).toNat =
      b.elementAddr (log + j.toNat / b.esz.toNat) (j.toNat % b.esz.toNat) := by
  have hesz : b.esz ≠ 0 := fun h0 => h.elementSize.ne' (word_eq_zero_iff.1 h0)
  rw [Body.transferAddr, Body.slotAddr, BitVec.toNat_add, BitVec.toNat_add, BitVec.toNat_mul,
    h.slot_add_toNat hi, quotient_toNat hesz, remainder_toNat hesz, Nat.mod_add_mod]
  exact ((Nat.mod_modEq _ _).add_left _).add_right _

/-- In storage that does not wrap, the addresses of element bytes do not (R72). -/
theorem Body.Configured.elementAddr_eq (h : b.Configured)
    (hu : b.base.toNat + b.storageBytes ≤ w.size) (i : Nat) {k : Nat} (hk : k < b.esz.toNat) :
    b.elementAddr i k = b.base.toNat + (b.esz.toNat * (i % b.cap.toNat) + k) := by
  have hslot : b.esz.toNat * (i % b.cap.toNat + 1) ≤ b.storageBytes :=
    (Nat.mul_le_mul_left _ (Nat.mod_lt i h.cap_pos)).trans_eq (Nat.mul_comm ..)
  rw [Body.elementAddr, Nat.mul_comm (i % _), Nat.add_assoc]
  exact Nat.mod_eq_of_lt (by rw [Nat.mul_add_one] at hslot; omega)

/-- In storage that does not wrap, element bytes at one address stand in one slot. -/
theorem Body.Configured.slot_eq_of_elementAddr_eq (h : b.Configured)
    (hu : b.base.toNat + b.storageBytes ≤ w.size) {i j k l : Nat} (hk : k < b.esz.toNat)
    (hl : l < b.esz.toNat) (heq : b.elementAddr i k = b.elementAddr j l) :
    i % b.cap.toNat = j % b.cap.toNat := by
  rw [h.elementAddr_eq hu i hk, h.elementAddr_eq hu j hl, Nat.add_left_cancel_iff] at heq
  have hdiv := congrArg (· / b.esz.toNat) heq
  simpa only [Nat.mul_add_div h.elementSize, Nat.div_eq_of_lt hk, Nat.div_eq_of_lt hl,
    Nat.add_zero] using hdiv

/-! ### The writer's share and the readable elements -/

/-- Fewer than `CAP` elements apart, different elements stand in different slots. -/
theorem mod_ne_of_lt_of_sub_lt {i j cap : Nat} (hlt : i < j) (hcap : j - i < cap) :
    i % cap ≠ j % cap := fun h =>
  (Nat.sub_pos_of_lt hlt).ne' (Nat.eq_zero_of_dvd_of_lt ((Nat.modEq_iff_dvd' hlt.le).1 h) hcap)

/-- The element the writer machine copies next stands in no slot of a readable one (R47). -/
theorem Body.Clean.writerSlot_ne (hc : b.Clean) (hs : b.writer.st = .copy) {i : Nat}
    (hr : b.ghost.rlog ≤ i) (hw : i < b.ghost.wlog) :
    i % b.cap.toNat ≠ (b.ghost.wlog + b.writer.k.toNat / b.esz.toNat) % b.cap.toNat := by
  have hbusy := hc.writing (by rw [hs]; decide)
  have hlt : b.writer.k.toNat / b.esz.toNat < b.writer.n.toNat :=
    Nat.div_lt_of_lt_mul (Nat.mul_comm .. ▸ hbusy.copying hs)
  have hfill := (hc.ordered hbusy.constructed).2
  have hn := hbusy.count
  rw [Body.filled] at hfill hn
  exact mod_ne_of_lt_of_sub_lt (hw.trans_le (Nat.le_add_right ..)) (by omega)

/-- Settles O59: the one byte the copy step changes stands in a slot of no readable element. -/
theorem writerCopiesLeaveReadableElements : Obligations.WriterCopiesLeaveReadableElements := by
  intro w b b' rest hsound hf hsched hs h i k hr hw hk
  have hc := hsound.clean hf
  have hconstructed := (hc.writing (by rw [hs]; decide)).constructed
  have hcfg := hsound.inv.constructed hconstructed
  have hb' : b' = ({ b with sched := rest } : Body w).copyWrite := by
    rw [step_inv b h, stepped_cons b hsched]
    simp only [Body.moved, Body.machineStep, hs]
  subst hb'
  by_contra hne
  rw [elementByte_eq, elementByte_eq] at hne
  have haddr : b.elementAddr i k = (b.transferAddr b.widx b.writer.k).toNat :=
    eq_of_putByte_changes (b := b) hne
  rw [hcfg.transferAddr_toNat hcfg.writeIndex] at haddr
  exact hc.writerSlot_ne hs hr hw (hcfg.slot_eq_of_elementAddr_eq (hc.unwrapped hconstructed) hk
    (Nat.mod_lt _ hcfg.elementSize) haddr)

end Sys2Proof.Machine
end

section
/-! The opcode map (R103, R106, R107) and the assembler's encoding (R109, R110): decoding inverts
encoding both ways, the words outside the map are the illegal ones, and a line carries its operands. -/

namespace Sys2Proof.Machine

variable {w : Width}

/-! ### The opcode map -/

/-- Each row's word decodes to its command (R103, R106). -/
@[simp] theorem decode_encode (i : Instr) : decode (encode i) = .ok i := by cases i <;> rfl

/-- Settles O1: a word decodes only to the command whose word it is, and each row's word decodes. -/
theorem decodeInvertsEncodeOnEveryWord : Obligations.DecodeInvertsEncodeOnEveryWord :=
  fun _ i => ⟨eq_encode_of_decode, fun h => h ▸ decode_encode i⟩

/-- The decoder rejects a word for its reserved field or for an opcode of no row (R107). -/
theorem decode_error_iff {word : BitVec 32} : (∃ r, decode word = .error r) ↔
    reservedField word ≠ 0 ∨ ∀ row ∈ opcodeMap, row.1 ≠ opcodeField word := by
  have hnone : opcodeMap.find? (fun row => row.1 == opcodeField word) = none ↔
      ∀ row ∈ opcodeMap, row.1 ≠ opcodeField word := by simp [List.find?_eq_none]
  rw [← hnone, decode]
  split_ifs with hr
  · exact iff_of_true ⟨_, rfl⟩ (.inl hr)
  · cases opcodeMap.find? (fun row => row.1 == opcodeField word) <;> simp [not_not.1 hr]

/-- The opcodes of no row, as the ranges of R107. -/
theorem unused_opcode_iff (o : BitVec 8) : (∀ row ∈ opcodeMap, row.1 ≠ o) ↔
    o.toNat = 0x00 ∨ o.toNat = 0x06 ∨ o.toNat = 0x07 ∨ (0x0A ≤ o.toNat ∧ o.toNat ≤ 0x0F) ∨
      (0x14 ≤ o.toNat ∧ o.toNat ≤ 0x1F) ∨ 0x25 ≤ o.toNat := by
  simp only [opcodeMap, List.forall_mem_cons, List.not_mem_nil, false_implies, implies_true,
    and_true, ne_eq, ← BitVec.toNat_inj, BitVec.ofNat_eq_ofNat, BitVec.toNat_ofNat]
  omega

theorem encode_eq_tableWord (i : Instr) : encode i = tableWord i := by cases i <;> rfl

theorem ports_eq_tablePorts (i : Instr) : i.ports = tablePorts i := by cases i <;> rfl

theorem operandCount_eq_tableOperands (i : Instr) : i.operandCount = tableOperands i := by
  cases i <;> rfl

/-- Settles O2: the decoder's answer for a row is that of its encoding; the two illegal words are
decoded. -/
theorem tableWordsDecode : Obligations.TableWordsDecode := by
  refine ⟨fun i => ⟨?_, encode_eq_tableWord i, fun p => ?_, operandCount_eq_tableOperands i⟩,
    rfl, rfl⟩
  · rw [← encode_eq_tableWord, decode_encode]
  · rw [ports_eq_tablePorts]

/-! ### The assembler's lines -/

/-- An encodable line's command (R109). -/
theorem lineCommand_of_encodable {l : Line} (h : l.encodable w = true) :
    lineCommand w l = some (l.port, ⟨encode l.instr, BitVec.ofNat _ (l.operands.getD 0 0),
      BitVec.ofNat _ (l.operands.getD 1 0), BitVec.ofNat _ (l.operands.getD 2 0)⟩) := if_pos h

theorem encodable_iff {l : Line} : l.encodable w = true ↔
    l.operands.length = l.instr.operandCount ∧ ∀ v ∈ l.operands, v < w.size := by
  simp [Line.encodable, Line.operandCountOk, Line.operandsFit]

/-- An operand that is a `W`-bit value stands on its line unchanged (R109). -/
theorem toNat_operandLine {operands : List Nat} (h : ∀ v ∈ operands, v < w.size) {n v : Nat}
    (hv : operands[n]? = some v) : (BitVec.ofNat w.bits (operands.getD n 0)).toNat = v := by
  rw [List.getD_eq_getElem?_getD, hv, Option.getD_some, BitVec.toNat_ofNat]
  exact Nat.mod_eq_of_lt (h v (List.mem_of_getElem? hv))

/-- Settles O4: the line's word decodes to its command, and each operand fits its line. -/
theorem encodedLineCarriesItsOperands : Obligations.EncodedLineCarriesItsOperands := by
  intro w l h
  have hfit := (encodable_iff.1 h).2
  exact ⟨_, lineCommand_of_encodable h, decode_encode _, fun _ => toNat_operandLine hfit,
    fun _ => toNat_operandLine hfit, fun _ => toNat_operandLine hfit⟩

/-- The count of R.DRAIN, `2^W - 1`, is the largest word. -/
theorem ofNat_size_sub_one : BitVec.ofNat w.bits (w.size - 1) = BitVec.allOnes w.bits :=
  BitVec.eq_of_toNat_eq (by simp [Width.size, Nat.mod_eq_of_lt])

/-- Settles O5: each expansion is an encodable line, whose command is the row's. -/
theorem pseudoInstructionsExpand : Obligations.PseudoInstructionsExpand := by
  intro w n dst src k esz hn hdst hsrc hk
  refine ⟨?_, ?_, ?_, fun hfits => ?_, fun hover => if_neg (not_lt.2 hover)⟩
  · exact lineCommand_of_encodable (encodable_iff.2 ⟨rfl, by simpa using hn⟩)
  · exact lineCommand_of_encodable (encodable_iff.2 ⟨rfl, by simpa using hn⟩)
  · rw [← ofNat_size_sub_one]
    exact lineCommand_of_encodable (encodable_iff.2 ⟨rfl, by simpa using hdst⟩)
  · rw [expandPseudo, if_pos hfits]
    exact lineCommand_of_encodable (encodable_iff.2 ⟨rfl, by simpa using ⟨hsrc, hfits, hk⟩⟩)

end Sys2Proof.Machine
end

section
/-! The handshake of a port (R104, R105): when it accepts the command on its lines, and what the step
does for a legal word, an illegal one, a busy port and a wrong port. -/

namespace Sys2Proof.Machine

variable {w : Width} {b : Body w} {p : PortId} {rest : List (Move w)}

/-- A port accepts where a command is presented and its machine is `IDLE` (R105). -/
theorem ready_iff : b.ready p = true ↔ (b.port p).presented = true ∧ MachineIdle b p := by
  cases p <;> simp [Body.ready, Body.portIdle, MachineIdle]

/-- Taking the step off the schedule does not change which ports can accept. -/
theorem ready_sched : ({ b with sched := rest } : Body w).ready p = b.ready p := by cases p <;> rfl

theorem port_sched : ({ b with sched := rest } : Body w).port p = b.port p := by cases p <;> rfl

/-- The step that accepts a command. -/
theorem stepped_accept (hs : b.sched = .accept p :: rest) (hp : (b.port p).presented = true)
    (hidle : MachineIdle b p) : b.stepped = ({ b with sched := rest } : Body w).accepted p := by
  rw [stepped_cons b hs]
  exact if_pos (ready_sched.trans (ready_iff.2 ⟨hp, hidle⟩))

/-- Acceptance takes the command off the lines and makes the port the active one. -/
theorem accept_sched : ({ b with sched := rest } : Body w).accept p =
    { b.setPort p { b.port p with presented := false } with active := p, sched := rest } := by
  cases p <;> rfl

/-- Settles O6: the step accepts, and the decoded command's accept step runs on the result. -/
theorem stepRunsTheDecodedCommand : Obligations.StepRunsTheDecodedCommand := by
  intro w b p rest i hs hp hidle hd
  rw [step_eq, exec_eq, stepped_accept hs hp hidle, Body.accepted, port_sched, hd, ← accept_sched]

/-- Settles O3: the decoder's two rejections are the words of R107; a rejected word's step is its
acceptance and the response. -/
theorem illegalWordsAnswerIllegalCommand : Obligations.IllegalWordsAnswerIllegalCommand := by
  refine ⟨fun word => decode_error_iff.trans (or_congr_right (unused_opcode_iff _)), ?_⟩
  intro w b p rest r hs hp hidle hd
  have hstep : b.stepped = (({ b with sched := rest } : Body w).accept p).raise .illegalCommand := by
    rw [stepped_accept hs hp hidle, Body.accepted, port_sched, hd]
  rw [accept_sched] at hstep
  set a : Body w :=
    { b.setPort p { b.port p with presented := false } with active := p, sched := rest }
  have hport : ∀ q, a.port q = (b.setPort p { b.port p with presented := false }).port q :=
    port_eq_of_fields rfl rfl rfl
  obtain ⟨hother, hpresented, hlines, hloaded⟩ : OnlyAnswers p a (a.raise .illegalCommand) :=
    onlyAnswers_respondOn p _ _ _ _ _ _ fun _ => rfl
  rw [hport, Body.port_setPort_self] at hpresented hlines hloaded
  refine ⟨_, by rw [step_eq, hstep], answered_respondOn a p _ _ _ _ _ _,
    by simp [SameRegisters, SameConfig, a], by simp [SameMachines, a], by simp [a],
    by simp [SameMemory, a], by simp [a], by simp [a], fun q hq => ?_, hpresented, hlines, hloaded⟩
  rw [hother q hq, hport, Body.port_setPort_other _ _ hq]

/-- A presentation on free lines. -/
theorem present_of_free {c : Command w} (h : (b.port p).presented = false) :
    b.present p c = b.setPort p { b.port p with presented := true, lines := c } :=
  if_neg (by simp [h])

/-- Settles O7: a busy port is not ready, so that the step only leaves the schedule; a presentation on
free lines sets the one port. -/
theorem busyPortHoldsTheCommand : Obligations.BusyPortHoldsTheCommand := by
  refine fun w b p rest => ⟨fun hs hbusy => ?_, fun c hs hfree => ?_⟩
  · rw [step_eq, stepped_cons b hs]
    have hn : ¬ ({ b with sched := rest } : Body w).ready p = true := fun h =>
      hbusy (ready_iff.1 (ready_sched ▸ h)).2
    rw [Body.moved, if_neg hn]
  · have hstep : b.stepped = ({ b with sched := rest } : Body w).setPort p
        { ({ b with sched := rest } : Body w).port p with presented := true, lines := c } := by
      rw [stepped_cons b hs, Body.moved, present_of_free (port_sched ▸ hfree)]
    refine ⟨_, by rw [step_eq, hstep], ?_, fun q hq => ?_, ?_⟩
    · rw [Body.port_setPort_self, port_sched]
    · rw [Body.port_setPort_other _ _ hq, port_sched]
    · simp [SameRegisters, SameConfig, SameMachines, SameMemory]

/-- A command on a port its row does not name does nothing but answer (R104). -/
theorem effect_of_wrong_port {i : Instr} (h : b.active ∉ i.ports) :
    b.effect i = b.raise .wrongPort := by
  cases i <;> exact command_of_wrong_port b h

/-- Settles O11: the port check comes before every rule, and its failure is a response. -/
theorem wrongPortIsReportedFirst : Obligations.WrongPortIsReportedFirst := by
  intro w b i h
  rw [← ports_eq_tablePorts] at h
  refine ⟨b.raise .wrongPort, ?_, answered_respondOn .., onlyResponds_respondOn ..⟩
  rw [exec_eq, effect_of_wrong_port h]

end Sys2Proof.Machine
end

section
/-! The operand lines (R101): no rule writes them, and none reads one but as an operand, so that every
rule commutes with a change of a port's lines (`setLines_<operation>`, the change outermost). What a
command reads of the lines is then its operands alone. -/

namespace Sys2Proof.Machine

variable {w : Width} (b : Body w) (p : PortId) (c : Command w)

/-- Port `p` with the lines of `c`. -/
def Body.setLines (b : Body w) (p : PortId) (c : Command w) : Body w :=
  b.setPort p { b.port p with lines := c }

/-! ### What a machine with other lines still shows -/

@[simp] theorem Body.setLines_cap : (b.setLines p c).cap = b.cap := b.setPort_cap ..
@[simp] theorem Body.setLines_widx : (b.setLines p c).widx = b.widx := b.setPort_widx ..
@[simp] theorem Body.setLines_ridx : (b.setLines p c).ridx = b.ridx := b.setPort_ridx ..
@[simp] theorem Body.setLines_esz : (b.setLines p c).esz = b.esz := b.setPort_esz ..
@[simp] theorem Body.setLines_owned : (b.setLines p c).owned = b.owned := b.setPort_owned ..
@[simp] theorem Body.setLines_constructed : (b.setLines p c).constructed = b.constructed :=
  b.setPort_constructed ..
@[simp] theorem Body.setLines_ghost : (b.setLines p c).ghost = b.ghost := b.setPort_ghost ..
@[simp] theorem Body.setLines_oracle : (b.setLines p c).oracle = b.oracle := b.setPort_oracle ..
@[simp] theorem Body.setLines_active : (b.setLines p c).active = b.active := b.setPort_active ..
@[simp] theorem Body.setLines_qRA : (b.setLines p c).qRA = b.qRA := by cases p <;> rfl
@[simp] theorem Body.setLines_qWA : (b.setLines p c).qWA = b.qWA := by cases p <;> rfl
@[simp] theorem Body.setLines_clamp (count avail : Word w) :
    (b.setLines p c).clamp count avail = b.clamp count avail := by cases p <;> rfl
@[simp] theorem Body.setLines_inFlight : (b.setLines p c).inFlight = b.inFlight := by
  cases p <;> rfl
@[simp] theorem Body.setLines_layoutWord (k : Nat) :
    (b.setLines p c).layoutWord k = b.layoutWord k := by cases p <;> rfl

/-! ### Shared operations -/

@[simp] theorem Body.setLines_respondOn (q : PortId) (st : Status) (r0 r1 r2 r3 r4 : Word w) :
    (b.setLines p c).respondOn q st r0 r1 r2 r3 r4 =
      (b.respondOn q st r0 r1 r2 r3 r4).setLines p c := by
  cases p <;> cases q <;> rfl

@[simp] theorem Body.setLines_ok (r0 : Word w) :
    (b.setLines p c).ok r0 = (b.ok r0).setLines p c := by
  rw [Body.ok, setLines_active, setLines_respondOn, Body.ok]

@[simp] theorem Body.setLines_raise (st : Status) :
    (b.setLines p c).raise st = (b.raise st).setLines p c := by
  rw [Body.raise, setLines_active, setLines_respondOn, Body.raise]

@[simp] theorem Body.setLines_recordIf (d : Bool) (x : MFault) :
    (b.setLines p c).recordIf d x = (b.recordIf d x).setLines p c := by cases p <;> rfl

@[simp] theorem Body.setLines_setWriteGrant (n : Nat) (z : Bool) :
    (b.setLines p c).setWriteGrant n z = (b.setWriteGrant n z).setLines p c := by cases p <;> rfl

@[simp] theorem Body.setLines_setReadGrant (n : Nat) (z : Bool) :
    (b.setLines p c).setReadGrant n z = (b.setReadGrant n z).setLines p c := by cases p <;> rfl

@[simp] theorem Body.setLines_command (i : Instr) (rule : Body w) :
    (b.setLines p c).command i (rule.setLines p c) = (b.command i rule).setLines p c := by
  unfold Body.command
  rw [setLines_active]
  split_ifs <;> simp

@[simp] theorem Body.setLines_constructedCommand (i : Instr) (rule : Body w) :
    (b.setLines p c).constructedCommand i (rule.setLines p c) =
      (b.constructedCommand i rule).setLines p c := by
  unfold Body.constructedCommand
  rw [← setLines_command, setLines_constructed]
  split_ifs <;> simp

/-- The oracle does not see the operand lines, and its answer leaves them as they were. -/
@[simp] theorem Body.setLines_allocRequest (n : Nat) :
    (b.setLines p c).allocRequest n =
      ((b.allocRequest n).1.setLines p c, (b.allocRequest n).2) := by
  unfold Body.allocRequest
  rw [setLines_oracle]
  rcases b.oracle.answers with _ | ⟨_ | ⟨base, bytes⟩, rest⟩
  · rfl
  · cases p <;> rfl
  · dsimp only
    split_ifs <;> cases p <;> rfl

/-! ### The commands' rules -/

@[simp] theorem Body.setLines_construct (esz n base : Word w) (owned : Bool) :
    (b.setLines p c).construct esz n base owned = (b.construct esz n base owned).setLines p c := by
  cases p <;> rfl

@[simp] theorem Body.setLines_newGranted (esz n : Word w) (r : Body w × Option (Word w)) :
    Body.newGranted esz n (r.1.setLines p c, r.2) = (Body.newGranted esz n r).setLines p c := by
  obtain ⟨b, _ | base⟩ := r <;> simp [Body.newGranted]

@[simp] theorem Body.setLines_new (esz n : Word w) :
    (b.setLines p c).new esz n = (b.new esz n).setLines p c := by
  unfold Body.new
  rw [setLines_constructed]
  split_ifs <;> simp

@[simp] theorem Body.setLines_newWithStorage (esz addr nbytes : Word w) :
    (b.setLines p c).newWithStorage esz addr nbytes =
      (b.newWithStorage esz addr nbytes).setLines p c := by
  unfold Body.newWithStorage
  rw [setLines_constructed]
  split_ifs <;> simp

@[simp] theorem Body.setLines_emptied :
    (b.setLines p c).emptied = b.emptied.setLines p c := by cases p <;> rfl

theorem Body.flush_eq : b.flush = (b.recordIf b.inFlight .flushInFlight).emptied.ok 0 := rfl

@[simp] theorem Body.setLines_flush : (b.setLines p c).flush = b.flush.setLines p c := by
  simp [Body.flush_eq]

@[simp] theorem Body.setLines_releaseStorage :
    (b.setLines p c).releaseStorage = b.releaseStorage.setLines p c := by
  unfold Body.releaseStorage
  rw [setLines_owned]
  split_ifs
  · cases p <;> rfl
  · rfl

@[simp] theorem Body.setLines_unconstruct :
    (b.setLines p c).unconstruct = b.unconstruct.setLines p c := by cases p <;> rfl

@[simp] theorem Body.setLines_destroy : (b.setLines p c).destroy = b.destroy.setLines p c := by
  simp [Body.destroy]

@[simp] theorem Body.setLines_readReg (k : Word w) :
    (b.setLines p c).readReg k = (b.readReg k).setLines p c := by
  unfold Body.readReg
  rw [setLines_layoutWord]
  cases b.layoutWord k.toNat <;> simp

@[simp] theorem Body.setLines_writeAvailable :
    (b.setLines p c).writeAvailable = b.writeAvailable.setLines p c := by
  unfold Body.writeAvailable
  rw [setLines_active]
  split_ifs <;> simp

@[simp] theorem Body.setLines_readAvailable :
    (b.setLines p c).readAvailable = b.readAvailable.setLines p c := by
  unfold Body.readAvailable
  rw [setLines_active]
  split_ifs <;> simp

@[simp] theorem Body.setLines_startWrite (n src : Word w) :
    (b.setLines p c).startWrite n src = (b.startWrite n src).setLines p c := by cases p <;> rfl

@[simp] theorem Body.setLines_startRead (n dst : Word w) :
    (b.setLines p c).startRead n dst = (b.startRead n dst).setLines p c := by cases p <;> rfl

@[simp] theorem Body.setLines_acceptWrite (src nbytes count : Word w) :
    (b.setLines p c).acceptWrite src nbytes count =
      (b.acceptWrite src nbytes count).setLines p c := by
  unfold Body.acceptWrite
  rw [setLines_esz]
  split_ifs <;> simp

@[simp] theorem Body.setLines_acceptRead (dst count : Word w) :
    (b.setLines p c).acceptRead dst count = (b.acceptRead dst count).setLines p c := by
  simp [Body.acceptRead]

@[simp] theorem Body.setLines_acceptReadInto (dst nbytes : Word w) :
    (b.setLines p c).acceptReadInto dst nbytes = (b.acceptReadInto dst nbytes).setLines p c := by
  unfold Body.acceptReadInto
  rw [setLines_esz]
  split_ifs <;> simp

@[simp] theorem Body.setLines_answerRegions (start n : Word w) :
    (b.setLines p c).answerRegions start n = (b.answerRegions start n).setLines p c := by
  rw [Body.answerRegions, setLines_active, setLines_respondOn]
  cases p <;> rfl

@[simp] theorem Body.setLines_getWriteRegions (count : Word w) :
    (b.setLines p c).getWriteRegions count = (b.getWriteRegions count).setLines p c := by
  simp [Body.getWriteRegions]

@[simp] theorem Body.setLines_getReadRegions (count : Word w) :
    (b.setLines p c).getReadRegions count = (b.getReadRegions count).setLines p c := by
  simp [Body.getReadRegions]

@[simp] theorem Body.setLines_append (n : Word w) (grant : Nat) (zc : Bool) :
    (b.setLines p c).append n grant zc = (b.append n grant zc).setLines p c := by cases p <;> rfl

@[simp] theorem Body.setLines_take (n : Word w) (grant : Nat) (zc : Bool) :
    (b.setLines p c).take n grant zc = (b.take n grant zc).setLines p c := by cases p <;> rfl

@[simp] theorem Body.setLines_idxAdd (i n : Word w) :
    (b.setLines p c).idxAdd i n = b.idxAdd i n := by cases p <;> rfl

@[simp] theorem Body.setLines_excessWrite (n : Word w) :
    (b.setLines p c).excessWrite n = b.excessWrite n := by cases p <;> rfl

@[simp] theorem Body.setLines_excessRead (n : Word w) :
    (b.setLines p c).excessRead n = b.excessRead n := by cases p <;> rfl

theorem Body.advanceWriteIndex_eq (n : Word w) : b.advanceWriteIndex n =
    ((b.recordIf (b.excessWrite n) .overcommitWrite).append n (b.ghost.wgrant - n.toNat) false).ok
      (b.idxAdd b.widx n) := rfl

theorem Body.advanceReadIndex_eq (n : Word w) : b.advanceReadIndex n =
    ((b.recordIf (b.excessRead n) .overcommitRead).take n (b.ghost.rgrant - n.toNat) false).ok
      (b.idxAdd b.ridx n) := rfl

@[simp] theorem Body.setLines_advanceWriteIndex (n : Word w) :
    (b.setLines p c).advanceWriteIndex n = (b.advanceWriteIndex n).setLines p c := by
  simp [Body.advanceWriteIndex_eq]

@[simp] theorem Body.setLines_advanceReadIndex (n : Word w) :
    (b.setLines p c).advanceReadIndex n = (b.advanceReadIndex n).setLines p c := by
  simp [Body.advanceReadIndex_eq]

/-! ### The operands of the command that runs -/

@[simp] theorem Body.setLines_opa : (b.setLines b.active c).opa = c.opa := by
  simp [Body.opa, Body.setLines]

@[simp] theorem Body.setLines_opb : (b.setLines b.active c).opb = c.opb := by
  simp [Body.opb, Body.setLines]

@[simp] theorem Body.setLines_opc : (b.setLines b.active c).opc = c.opc := by
  simp [Body.opc, Body.setLines]

/-- Lines that agree on the operands the command uses (R103) give the same accept step. -/
theorem Body.setLines_effect (i : Instr) (ha : 0 < i.operandCount → c.opa = b.opa)
    (hb : 1 < i.operandCount → c.opb = b.opb) (hc : 2 < i.operandCount → c.opc = b.opc) :
    (b.setLines b.active c).effect i = (b.effect i).setLines b.active c := by
  cases i with
  | destroy | flush | len | elementSize | writeAvailable | readAvailable => simp [Body.effect]
  | readReg | getWriteRegions | advanceWriteIndex | getReadRegions | advanceReadIndex =>
    simp [Body.effect, ha (by decide)]
  | new | read | readInto => simp [Body.effect, ha (by decide), hb (by decide)]
  | newWithStorage | write =>
    simp [Body.effect, ha (by decide), hb (by decide), hc (by decide)]

/-- Settles O9: the changed lines agree with the old ones on every operand the command uses. -/
theorem unusedOperandLinesAreIgnored : Obligations.UnusedOperandLinesAreIgnored := by
  intro w b t i x y z q c h
  have heffect : (b.setLines b.active c).effect i = (b.effect i).setLines b.active c :=
    b.setLines_effect c i (fun ha => if_pos ha) (fun hb => if_pos hb) fun hc => if_pos hc
  rw [exec_inv b h, exec_eq]
  exact congrArg (fun r : Body w => Host.Outcome.next (⟨w, r⟩ : State)) heffect

end Sys2Proof.Machine
end

section
/-! Construction (R130 to R137): the power-of-two test, the response and the registers of NEW and
NEW_WITH_STORAGE, and the queries of the empty block they leave. -/

namespace Sys2Proof.Machine

variable {w : Width} {b : Body w}

/-! ### The power-of-two test (R130) -/

/-- The predecessor of a positive word, as a natural number. -/
theorem toNat_sub_one {n : Word w} (h : 0 < n.toNat) : (n - 1).toNat = n.toNat - 1 := by
  rw [BitVec.toNat_sub_of_le (by rw [BitVec.le_def, toNat_one_word]; omega), toNat_one_word]

/-- The predecessor of `2^k` is the mask of its `k` low bits, in which `2^k` has none. -/
theorem isPow2_of_toNat_eq_two_pow {n : Word w} {k : Nat} (h : n.toNat = 2 ^ k) :
    isPow2 n = true := by
  have hpos : 0 < n.toNat := h ▸ Nat.two_pow_pos k
  have hne : n ≠ 0 := fun h0 => hpos.ne' (word_eq_zero_iff.1 h0)
  have hand : n &&& (n - 1) = 0 := by
    rw [word_eq_zero_iff, toNat_and_mask n (n - 1) k (by rw [toNat_sub_one hpos, h]), h,
      Nat.mod_self]
  rw [isPow2, decide_eq_true hne, decide_eq_true hand, Bool.and_self]

/-- Settles O13: a word that passes the test is a power of two, below `2^W` as every word; the
predecessor of a power of two has no bit in common with it. -/
theorem powerOfTwoTestIsExact : Obligations.PowerOfTwoTestIsExact := by
  refine fun w c => ⟨fun h => ?_, fun ⟨_, _, hk⟩ => isPow2_of_toNat_eq_two_pow hk⟩
  obtain ⟨k, hk, -⟩ := exists_two_pow_of_isPow2 h
  exact ⟨k, (Nat.pow_lt_pow_iff_right (by decide : 1 < 2)).1 (hk ▸ c.isLt), hk⟩

/-! ### What a successful construction leaves (R131, R135) -/

/-- The register loads and the response of a construction, whatever became of the oracle, the memory
and the ghost state before them. -/
theorem constructedWith_construct_ok {esz n : Word w} (hn : isPow2 n = true) (base : Word w)
    (owned : Bool) (mem : List Host.Cell) (ghost : Ghost) (oracle : Oracle w) :
    ConstructedWith b
      ((Body.construct { b with mem := mem, ghost := ghost, oracle := oracle } esz n base owned).ok
        base) esz n base owned := by
  set c := Body.construct { b with mem := mem, ghost := ghost, oracle := oracle } esz n base owned
    with hc
  have honly : OnlyAnswers b.active b (c.ok base) :=
    onlyAnswers_respondOn _ _ _ _ _ _ _ fun p => by cases p <;> rfl
  have hanswers : Answered ((c.ok base).port b.active) 0x00 base 0 0 0 0 := answered_respondOn ..
  simp only [ConstructedWith, SameMachines, honly, hanswers]
  simp [hc, Body.construct, bigMask_toNat hn, smallMask_toNat hn]

/-! ### NEW (R131, R10) -/

/-- The oracle serves a request whose answer R10 allows. -/
theorem allocRequest_of_grant {base : Word w} {bytes : List Byte} {rest : List (AllocAnswer w)}
    {n : Nat} (h : b.oracle.answers = .grant base bytes :: rest) (hfit : base.toNat + n ≤ w.size)
    (hapart : ∀ r ∈ b.oracle.live, base.toNat + n ≤ r.1 ∨ r.1 + r.2 ≤ base.toNat) :
    b.allocRequest n = ({ b with
      oracle := ⟨rest, (base.toNat, n) :: b.oracle.live⟩
      mem := memOverlay b.mem base (bytes.take n) }, some base) := by
  have hgrant : b.oracle.mayGrant base.toNat n = true := by
    simpa [Oracle.mayGrant, rangesApart, hfit] using hapart
  rw [Body.allocRequest, h]
  exact if_pos hgrant

/-- NEW with legal operands gets as far as its request. -/
theorem new_of_legal {esz n : Word w} (hc : b.constructed = false) (hz : esz ≠ 0)
    (hn : isPow2 n = true) (hfit : n.toNat * esz.toNat < w.size) :
    b.new esz n = Body.newGranted esz n (b.allocRequest (n.toNat * esz.toNat)) := by
  rw [Body.new, if_neg (by simp [hc]), if_neg hz, if_neg (by simp [hn]), if_neg hfit.not_ge]

/-- Settles O14: the request is served, and the construction follows it; the bytes laid down are no
more than the region holds. -/
theorem newConstructsWithGrantedStorage : Obligations.NewConstructsWithGrantedStorage := by
  intro w b base bytes rest hp hc hmem hz hn hlt hans hfit hapart
  have hnew : b.effect .new = (Body.construct { b with
      oracle := ⟨rest, (base.toNat, b.opb.toNat * b.opa.toNat) :: b.oracle.live⟩
      mem := memOverlay b.mem base (bytes.take (b.opb.toNat * b.opa.toNat)) }
      b.opa b.opb base true).ok base := by
    rw [Body.effect, command_of_port b (i := .new) (List.mem_singleton.2 hp),
      new_of_legal hc hz hn hlt, allocRequest_of_grant hans hfit hapart, Body.newGranted]
  have hlen := List.length_take_le (b.opb.toNat * b.opa.toNat) bytes
  refine ⟨_, exec_eq b _, ?_⟩
  rw [hnew]
  refine ⟨constructedWith_construct_ok hn base true _ b.ghost _, ?_⟩
  simp only [Body.ok_ghost, Body.ok_oracle, Body.ok_mem]
  refine ⟨rfl, rfl, rfl, fun k v hk hv => ?_, fun x hx => ?_⟩
  · exact memRead_memOverlay_inside base _ hmem (by omega) (by rw [List.getElem?_take_of_lt hk, hv])
  · exact memRead_memOverlay_outside base _ (by omega) (by omega)

/-! ### NEW_WITH_STORAGE (R135 to R137) -/

/-- A region wraps exactly where it goes beyond the top of memory: an empty one does not (R71). -/
theorem rangeWraps_eq (x : Word w) (n : Nat) :
    rangeWraps x n = decide (w.size < x.toNat + n) := by
  have hx : x.toNat < w.size := x.isLt
  rw [rangeWraps, ← Bool.decide_and, decide_eq_decide]
  omega

/-- NEW_WITH_STORAGE with legal operands adopts the region (R135, R136). -/
theorem newWithStorage_of_legal {esz n nbytes : Word w} (addr : Word w)
    (hc : b.constructed = false) (hz : esz ≠ 0) (hn : isPow2 n = true)
    (hbytes : nbytes.toNat = n.toNat * esz.toNat) :
    b.newWithStorage esz addr nbytes =
      ((b.recordIf (rangeWraps addr nbytes.toNat) .regionWrap).construct esz n addr false).ok
        addr := by
  have hrem : remainder nbytes esz = 0 := by
    rw [word_eq_zero_iff, remainder_toNat hz, hbytes, Nat.mul_mod_left]
  have hquot : quotient nbytes esz = n := by
    refine BitVec.eq_of_toNat_eq ?_
    rw [quotient_toNat hz, hbytes, Nat.mul_div_cancel _ (toNat_pos_of_ne_zero hz)]
  rw [Body.newWithStorage, if_neg (by simp [hc]), if_neg hz, if_neg (not_not.2 hrem), hquot,
    if_neg (by simp [hn])]

/-- Settles O15: the rule records the fault and loads the registers, and touches nothing else. -/
theorem newWithStorageAdoptsTheRegion : Obligations.NewWithStorageAdoptsTheRegion := by
  intro w b n hp hc hz hn hbytes
  have hnew : b.effect .newWithStorage = ((b.recordIf (rangeWraps b.opb b.opc.toNat)
      .regionWrap).construct b.opa n b.opb false).ok b.opb := by
    rw [Body.effect, command_of_port b (i := .newWithStorage) (List.mem_singleton.2 hp),
      newWithStorage_of_legal b.opb hc hz hn hbytes]
  refine ⟨_, exec_eq b _, ?_⟩
  rw [hnew]
  refine ⟨constructedWith_construct_ok hn b.opb false b.mem _ b.oracle, ?_⟩
  simp [SameMemory, Body.construct, rangeWraps_eq]

/-! ### The block after a construction is empty (R132) -/

/-- Where port `p` shows `OK`, `r` is a constructed block with both indices 0. -/
def Body.EmptyIfOk (r : Body w) (p : PortId) : Prop :=
  (r.port p).status = 0x00 → r.constructed = true ∧ r.widx = 0 ∧ r.ridx = 0

theorem Status.code_ne_zero {st : Status} (h : st ≠ .ok) : st.code ≠ 0x00 := by
  cases st with
  | ok => exact absurd rfl h
  | _ => decide

theorem emptyIfOk_raise {st : Status} (h : st ≠ .ok) : (b.raise st).EmptyIfOk b.active := by
  intro hok
  rw [Body.port_raise_self] at hok
  exact absurd hok (Status.code_ne_zero h)

theorem emptyIfOk_construct_ok (esz n base : Word w) (owned : Bool) (p : PortId) :
    ((b.construct esz n base owned).ok base).EmptyIfOk p := by
  simp [Body.EmptyIfOk, Body.construct]

theorem emptyIfOk_new (esz n : Word w) : (b.new esz n).EmptyIfOk b.active := by
  unfold Body.new
  split_ifs
  iterate 4 exact emptyIfOk_raise (by decide)
  rcases allocRequest_cases b (n.toNat * esz.toNat) with ⟨_, ha⟩ | ⟨_, _, _, -, -, ha⟩ <;> rw [ha]
  · exact emptyIfOk_raise (b := { b with oracle := _ }) (by decide)
  · exact emptyIfOk_construct_ok _ _ _ _ _

theorem emptyIfOk_newWithStorage (esz addr nbytes : Word w) :
    (b.newWithStorage esz addr nbytes).EmptyIfOk b.active := by
  unfold Body.newWithStorage
  split_ifs
  iterate 4 exact emptyIfOk_raise (by decide)
  exact emptyIfOk_construct_ok _ _ _ _ _

theorem emptyIfOk_command (i : Instr) {rule : Body w} (h : rule.EmptyIfOk b.active) :
    (b.command i rule).EmptyIfOk b.active := by
  rcases command_cases b i rule with hr | ⟨-, hr⟩ <;> rw [hr]
  · exact emptyIfOk_raise (by decide)
  · exact h

/-- READ_AVAILABLE on a constructed block answers `Q_RA` on every port (R173). -/
theorem answered_readAvailable (hc : b.constructed = true) :
    Answered ((b.effect .readAvailable).port b.active) 0x00 b.qRA 0 0 0 0 := by
  rw [Body.effect, constructedCommand_of_port b (by cases b.active <;> decide) hc,
    Body.readAvailable]
  split_ifs <;> exact answered_respondOn ..

/-- WRITE_AVAILABLE on a constructed block answers `Q_WA` on every port (R172). -/
theorem answered_writeAvailable (hc : b.constructed = true) :
    Answered ((b.effect .writeAvailable).port b.active) 0x00 b.qWA 0 0 0 0 := by
  rw [Body.effect, constructedCommand_of_port b (by cases b.active <;> decide) hc,
    Body.writeAvailable]
  split_ifs <;> exact answered_respondOn ..

/-- The queries of a constructed block whose indices are both 0 (R168). -/
theorem answered_queries_of_empty (hc : b.constructed = true) (hw : b.widx = 0) (hr : b.ridx = 0) :
    Answered ((b.effect .readAvailable).port b.active) 0x00 0 0 0 0 0 ∧
      Answered ((b.effect .writeAvailable).port b.active) 0x00 b.cap 0 0 0 0 := by
  have hra : b.qRA = 0 := by simp [Body.qRA, hw, hr]
  have hwa : b.qWA = b.cap := by simp [Body.qWA, hc, hra]
  have hread := answered_readAvailable hc
  have hwrite := answered_writeAvailable hc
  rw [hra] at hread
  rw [hwa] at hwrite
  exact ⟨hread, hwrite⟩

/-- Settles O16: a construction that answers `OK` passed its checks and left both indices 0. -/
theorem constructionLeavesTheBufferEmpty : Obligations.ConstructionLeavesTheBufferEmpty := by
  intro w b b' i p hi h hok
  have hempty : b'.EmptyIfOk b.active := by
    rw [exec_inv b h]
    rcases hi with rfl | rfl
    · exact emptyIfOk_command _ (emptyIfOk_new _ _)
    · exact emptyIfOk_command _ (emptyIfOk_newWithStorage _ _ _)
  obtain ⟨hc, hw, hr⟩ := hempty hok
  obtain ⟨hread, hwrite⟩ := answered_queries_of_empty (b := { b' with active := p }) hc hw hr
  exact ⟨⟨_, exec_eq _ _, hread⟩, ⟨_, exec_eq _ _, hwrite⟩⟩

end Sys2Proof.Machine
end

section
/-! Mask and modulo logic (R161, R163, R164): slots, index advance and region splitting as
arithmetic on natural numbers. -/

namespace Sys2Proof.Machine

variable {w : Width} {b : Body w}

/-! ### Slots and index advance -/

/-- The index modulus and with it the capacity divide the number of words (R163). -/
theorem Body.Configured.two_mul_cap_dvd (h : b.Configured) : 2 * b.cap.toNat ∣ w.size := by
  obtain ⟨-, -, hdvd⟩ := exists_two_pow_of_isPow2 h.capacity
  exact hdvd

/-- Settles O17: the slot is a remainder by `CAP`, and `CAP` divides `2*CAP` and `2^W`, so that
reducing by either first changes nothing. -/
theorem slotIsTheIndexModuloCapacity : Obligations.SlotIsTheIndexModuloCapacity := by
  intro w b h
  refine ⟨fun i => ?_, fun logical => ?_⟩
  · rw [h.slot_toNat]
    exact ⟨rfl, Nat.mod_lt _ h.cap_pos⟩
  · have hcap : b.cap.toNat ∣ 2 * b.cap.toNat := Nat.dvd_mul_left ..
    rw [h.slot_toNat, BitVec.toNat_ofNat, Nat.mod_mod_of_dvd _ (hcap.trans h.two_mul_cap_dvd),
      Nat.mod_mod_of_dvd _ hcap]

/-- `IdxAdd` on words of any value (R163). -/
theorem Body.Configured.toNat_idxAdd (h : b.Configured) (i n : Word w) :
    (b.idxAdd i n).toNat = (i.toNat + n.toNat) % (2 * b.cap.toNat) := by
  rw [Body.idxAdd, h.toNat_and_bmask, BitVec.toNat_add, Nat.mod_mod_of_dvd _ h.two_mul_cap_dvd]

/-- Settles O18: `2*CAP` divides `2^W`, so that masking the wrapped sum takes the exact one. -/
theorem indexAdvanceIsModuloTwiceCapacity : Obligations.IndexAdvanceIsModuloTwiceCapacity :=
  fun _ _ h => h.toNat_idxAdd

/-! ### Region splitting -/

/-- Where no multiple of `cap` is crossed, consecutive elements stand in consecutive slots. -/
theorem map_mod_range {cap s m : Nat} (hm : s % cap + m ≤ cap) :
    (List.range m).map (fun d => (s + d) % cap) = (List.range m).map (s % cap + ·) := by
  refine List.map_congr_left fun d hd => ?_
  have hlt := List.mem_range.1 hd
  rw [← Nat.mod_add_mod, Nat.mod_eq_of_lt (by omega)]

/-- Past the end of the storage the slots begin again at 0. -/
theorem map_mod_range_wrapping {cap s m k : Nat} (hm : s % cap + m = cap) (hk : k ≤ cap) :
    (List.range (m + k)).map (fun d => (s + d) % cap) =
      (List.range m).map (s % cap + ·) ++ (List.range k).map (0 + ·) := by
  have hzero : (s + m) % cap = 0 := by rw [← Nat.mod_add_mod, hm, Nat.mod_self]
  have hrest := map_mod_range (cap := cap) (s := s + m) (m := k) (by omega)
  rw [List.range_add, List.map_append, map_mod_range hm.le, List.map_map]
  simpa only [Function.comp_def, ← Nat.add_assoc, hzero, List.append_cancel_left_eq] using hrest

/-- Settles O19: the elements up to the end of the storage stand in the first span; the next one
stands in slot 0, and the rest follow it in the second. -/
theorem splitCoversTheSlotsInOrder : Obligations.SplitCoversTheSlotsInOrder := by
  intro w b h s n hn
  have hoff := h.slot_toNat s
  have hlt : s.toNat % b.cap.toNat < b.cap.toNat := Nat.mod_lt _ h.cap_pos
  rw [Body.split]
  split_ifs with hfit
  · rw [hoff] at hfit
    refine ⟨hoff ▸ hfit, by simp, ?_⟩
    rw [map_mod_range hfit, hoff]
    simp
  · have hfirst : (b.slot s).toNat + (b.cap - b.slot s).toNat = b.cap.toNat := by
      rw [BitVec.toNat_sub_of_le (by rw [BitVec.le_def]; omega)]
      omega
    generalize b.cap - b.slot s = m at hfirst ⊢
    have hsecond : m.toNat + (n - m).toNat = n.toNat := by
      rw [BitVec.toNat_sub_of_le (by rw [BitVec.le_def]; omega)]
      omega
    refine ⟨hfirst.le, (Nat.zero_add (n - m).toNat).trans_le (by omega), ?_⟩
    rw [hoff] at hfirst
    rw [← hsecond, map_mod_range_wrapping hfirst (by omega), hoff]
    rfl

end Sys2Proof.Machine
end

section
/-! The query unit (R167 to R170, R176): its outputs are the solution of an equation between the
index registers, measure the logical indices in an unfaulted state, and shrink by their own side
only. -/

namespace Sys2Proof.Machine

variable {w : Width} {b c : Body w}

/-! ### The filled and the free count (R168, R169) -/

/-- Settles O21: the contract invariant bounds the filled count that both outputs measure. -/
theorem queryUnitMeasuresTheLogicalIndices : Obligations.QueryUnitMeasuresTheLogicalIndices := by
  intro w b hs hf hk
  have hc := hs.clean hf
  obtain ⟨hle, hfill⟩ := hc.ordered hk
  have hra := qRA_toNat_eq_filled hs.inv hc hk
  exact ⟨hle, hra, qWA_toNat_eq_free hs.inv hc hk, hra ▸ hfill⟩

theorem qRA_of_unconstructed (h : b.constructed = false) : b.qRA = 0 := by simp [Body.qRA, h]

theorem qWA_of_unconstructed (h : b.constructed = false) : b.qWA = 0 := by simp [Body.qWA, h]

/-- `Q_WA` is what `Q_RA` leaves of the capacity, which is 0 in an unconstructed block (R50). -/
theorem Body.Inv.qWA_eq (h : b.Inv) : b.qWA = b.cap - b.qRA := by
  cases hk : b.constructed with
  | true => rw [Body.qWA, if_pos hk]
  | false =>
    obtain ⟨hcap, -⟩ := h.unconstructed hk
    simp [qWA_of_unconstructed hk, qRA_of_unconstructed hk, hcap]

/-- Settles O22: `Q_WA` is the difference of `CAP` and `Q_RA`, exact where that is not negative. -/
theorem queryOutputsAddUpToCapacity : Obligations.QueryOutputsAddUpToCapacity := by
  intro w b hs
  rw [hs.inv.qWA_eq]
  refine ⟨by rw [BitVec.add_comm, BitVec.sub_add_cancel], fun hle => ?_, fun hf => ?_⟩
  · rw [BitVec.toNat_sub_of_le (BitVec.le_def.2 hle), Nat.add_sub_cancel' hle]
  · cases hk : b.constructed with
    | true => exact qRA_toNat_eq_filled hs.inv (hs.clean hf) hk ▸ ((hs.clean hf).ordered hk).2
    | false => simp [qRA_of_unconstructed hk]

/-! ### Empty and full (R170) -/

/-- `Q_RA` is the one index value that takes the read index to the write index. -/
theorem Body.Configured.qRA_eq_iff (h : b.Configured) (hk : b.constructed = true) {x : Word w}
    (hx : x.toNat < 2 * b.cap.toNat) : b.qRA = x ↔ b.widx = b.idxAdd b.ridx x := by
  have hwidx : b.widx.toNat < 2 * b.cap.toNat := h.writeIndex ▸ Nat.mod_lt _ (by omega)
  have hra : b.qRA.toNat = (b.widx - b.ridx).toNat % (2 * b.cap.toNat) := by
    rw [Body.qRA, if_pos hk, h.toNat_and_bmask]
  have hsum : (b.ridx.toNat + b.qRA.toNat) % (2 * b.cap.toNat) = b.widx.toNat := by
    rw [hra, Nat.add_mod_mod, ← Nat.mod_mod_of_dvd _ h.two_mul_cap_dvd, ← BitVec.toNat_add,
      BitVec.add_comm, BitVec.sub_add_cancel, Nat.mod_eq_of_lt hwidx]
  constructor
  · rintro rfl
    exact BitVec.eq_of_toNat_eq (by rw [h.toNat_idxAdd, hsum])
  · intro heq
    have hmod : b.ridx.toNat + b.qRA.toNat ≡ b.ridx.toNat + x.toNat [MOD 2 * b.cap.toNat] := by
      rw [Nat.ModEq, hsum, ← h.toNat_idxAdd, ← heq]
    exact BitVec.eq_of_toNat_eq ((Nat.ModEq.add_left_cancel' _ hmod).eq_of_lt_of_lt
      (hra ▸ Nat.mod_lt _ (by omega)) hx)

/-- The read index is a remainder by `2*CAP` (R46), so that advancing it by 0 leaves it. -/
theorem Body.Configured.idxAdd_ridx_zero (h : b.Configured) : b.idxAdd b.ridx 0 = b.ridx := by
  refine BitVec.eq_of_toNat_eq ?_
  rw [h.idxAdd_toNat h.readIndex, h.readIndex]
  simp

/-- Advancing an index by `CAP` leads to the same slot. -/
theorem Body.Configured.slot_idxAdd_cap (h : b.Configured) (i : Word w) :
    b.slot (b.idxAdd i b.cap) = b.slot i := by
  refine BitVec.eq_of_toNat_eq ?_
  rw [h.slot_toNat, h.toNat_idxAdd, Nat.mod_mod_of_dvd _ (Nat.dvd_mul_left ..), Nat.add_mod_right,
    h.slot_toNat]

/-- Settles O23: empty and full are `Q_RA` at 0 and at `CAP`, two values below `2*CAP`. -/
theorem emptyAndFullAreToldApart : Obligations.EmptyAndFullAreToldApart := by
  intro w b hi hk
  have h := hi.constructed hk
  have hpos := h.cap_pos
  have hempty : b.qEmpty = true ↔ b.widx = b.ridx := by
    rw [Body.qEmpty, hk, Bool.true_and, decide_eq_true_iff, h.qRA_eq_iff hk (by simp; omega),
      h.idxAdd_ridx_zero]
  have hfull : b.qFull = true ↔ b.widx = b.idxAdd b.ridx b.cap := by
    rw [Body.qFull, hk, Bool.true_and, decide_eq_true_iff, h.qRA_eq_iff hk (by omega)]
  have hapart : ¬ (b.qEmpty = true ∧ b.qFull = true) := by
    simp only [Body.qEmpty, Body.qFull, hk, Bool.true_and, decide_eq_true_iff]
    rintro ⟨hzero, hcap⟩
    exact hpos.ne' (word_eq_zero_iff.1 (hcap.symm.trans hzero))
  refine ⟨hempty, hfull, hapart, fun hf => ⟨?_, fun heq => hapart ⟨hempty.2 heq, hf⟩⟩⟩
  rw [hfull.1 hf, h.slot_idxAdd_cap]

/-! ### Whose steps shrink the counts (R176) -/

/-- Only port W's commands fill the ring. -/
theorem Body.Runs.filled_le {i : Instr} (h : b.Runs i c) (hw : b.active ≠ .writer) :
    c.filled ≤ b.filled := by
  cases h with
  | advancesWrite n hp => exact absurd hp hw
  | advancesRead n => exact Nat.sub_le_sub_left (Nat.le_add_right ..) _
  | constructsOwned | constructsBorrowed | flushes | destroys => exact Nat.zero_le _
  | _ => exact le_rfl

/-- Only the commands of ports R and C empty the ring. -/
theorem Body.Runs.le_filled {i : Instr} (h : b.Runs i c) (hr : b.active ≠ .reader)
    (hc : b.active ≠ .control) : b.filled ≤ c.filled := by
  cases h with
  | advancesWrite n => exact Nat.sub_le_sub_right (Nat.le_add_right ..) _
  | advancesRead n hp => exact absurd hp hr
  | constructsOwned hp | constructsBorrowed hp | flushes hp | destroys hp => exact absurd hp hc
  | _ => exact le_rfl

theorem filled_accept (p : PortId) : (b.accept p).filled = b.filled := by
  rw [Body.filled, (b.alike_accept p).ghost, Body.filled]

/-- Only the writer's side fills the ring. -/
theorem Body.Acts.filled_le {m : Move w} (h : b.Acts m c) (hm : m ≠ .machine .writer)
    (ha : m ≠ .accept .writer) : c.filled ≤ b.filled := by
  cases h with
  | publishesWrite => exact absurd rfl hm
  | publishesRead => exact Nat.sub_le_sub_left (Nat.le_add_right ..) _
  | @accepts p _ _ _ _ h =>
    exact (h.filled_le fun hp : p = _ => ha (hp ▸ rfl)).trans_eq (filled_accept p)
  | _ => exact le_rfl

/-- Only the reader's side and port C empty the ring. -/
theorem Body.Acts.le_filled {m : Move w} (h : b.Acts m c) (hm : m ≠ .machine .reader)
    (ha : m ≠ .accept .reader) (hc : m ≠ .accept .control) : b.filled ≤ c.filled := by
  cases h with
  | publishesWrite => exact Nat.sub_le_sub_right (Nat.le_add_right ..) _
  | publishesRead => exact absurd rfl hm
  | @accepts p _ _ _ _ h =>
    exact (filled_accept p).ge.trans
      (h.le_filled (fun hp : p = _ => ha (hp ▸ rfl)) fun hp : p = _ => hc (hp ▸ rfl))
  | _ => exact le_rfl

/-- A step that is not the writer's side's leaves no more filled elements. -/
theorem step_filled_le (h : step ⟨w, b⟩ = .next ⟨w, c⟩)
    (hm : b.sched.head? ≠ some (.machine .writer)) (ha : b.sched.head? ≠ some (.accept .writer)) :
    c.filled ≤ b.filled := by
  refine step_rel (R := fun b d => d.filled ≤ b.filled) h le_rfl fun m rest hs => ?_
  obtain ⟨d, hd, halike⟩ := moved_acts { b with sched := rest } m
  rw [hs, List.head?_cons] at hm ha
  rw [Body.filled, halike.ghost]
  exact hd.filled_le (fun he => hm (he ▸ rfl)) fun he => ha (he ▸ rfl)

/-- A step that is neither the reader's side's nor port C's leaves no fewer filled elements. -/
theorem step_le_filled (h : step ⟨w, b⟩ = .next ⟨w, c⟩)
    (hm : b.sched.head? ≠ some (.machine .reader)) (ha : b.sched.head? ≠ some (.accept .reader))
    (hc : b.sched.head? ≠ some (.accept .control)) : b.filled ≤ c.filled := by
  refine step_rel (R := fun b d => b.filled ≤ d.filled) h le_rfl fun m rest hs => ?_
  obtain ⟨d, hd, halike⟩ := moved_acts { b with sched := rest } m
  rw [hs, List.head?_cons] at hm ha hc
  rw [Body.filled, Body.filled, halike.ghost]
  exact hd.le_filled (fun he => hm (he ▸ rfl)) (fun he => ha (he ▸ rfl)) fun he => hc (he ▸ rfl)

/-- A step to an unfaulted state starts in one (R49). -/
theorem step_unfaulted (h : step ⟨w, b⟩ = .next ⟨w, c⟩) (hf : c.ghost.faults = .empty) :
    b.ghost.faults = .empty := by
  refine step_rel (R := fun b d => d.ghost.faults = .empty → b.ghost.faults = .empty) h id
    (fun m rest _ hd => ?_) hf
  obtain ⟨d, hacts, ha⟩ := moved_acts { b with sched := rest } m
  exact hacts.unfaulted (ha.ghost ▸ hd)

/-- Settles O56: in the two unfaulted states the outputs are the free and the filled count of one
capacity, and the filled count moves by its own side only. -/
theorem availabilityShrinksOnlyByItsOwnSide : Obligations.AvailabilityShrinksOnlyByItsOwnSide := by
  intro w b b' hs h hf hk hk'
  have hs' := stepKeepsTheContractInvariant w b b' hs h
  have hc := hs.clean (step_unfaulted h hf)
  have hc' := hs'.clean hf
  obtain ⟨hcap, -⟩ := configurationIsConstantWhileConstructed w b b' h hk hk'
  refine ⟨fun hm ha => ?_, fun hm ha hcontrol => ?_⟩
  · rw [qWA_toNat_eq_free hs.inv hc hk, qWA_toNat_eq_free hs'.inv hc' hk', hcap]
    exact Nat.sub_le_sub_left (step_filled_le h hm ha) _
  · rw [qRA_toNat_eq_filled hs.inv hc hk, qRA_toNat_eq_filled hs'.inv hc' hk']
    exact step_le_filled h hm ha hcontrol

end Sys2Proof.Machine
end

section
/-! The query commands (R171 to R175): they may be issued on any port, and do no more than answer
and, on the port of their own side, set its grant. -/

namespace Sys2Proof.Machine

variable {w : Width} {b : Body w}

/-! ### The checks before a query's rule -/

/-- The commands that only ask (R171). -/
def queryCommands : List Instr := [.len, .elementSize, .writeAvailable, .readAvailable]

/-- A query may be issued on any port (R103). -/
theorem mem_ports_of_query {i : Instr} (h : i ∈ queryCommands) (p : PortId) : p ∈ i.ports := by
  have hall : ∀ i ∈ queryCommands, .writer ∈ i.ports ∧ .reader ∈ i.ports ∧ .control ∈ i.ports := by
    decide
  obtain ⟨hwriter, hreader, hcontrol⟩ := hall i h
  cases p <;> assumption

/-- A query's rule runs on a constructed block, whatever the port (R285). -/
theorem constructedCommand_of_query {i : Instr} (h : i ∈ queryCommands) (hc : b.constructed = true)
    (rule : Body w) : b.constructedCommand i rule = rule :=
  constructedCommand_of_port b (mem_ports_of_query h _) hc

/-- A command that needs a constructed block answers `NotConstructed` without one (R285). -/
theorem constructedCommand_of_unconstructed {i : Instr} {rule : Body w} (h : b.active ∈ i.ports)
    (hc : b.constructed = false) : b.constructedCommand i rule = b.raise .notConstructed := by
  rw [Body.constructedCommand, command_of_port b h, if_neg (by simp [hc])]

/-- A query of an unconstructed block answers `NotConstructed` on every port (R171). -/
theorem effect_query_of_unconstructed {i : Instr} (h : i ∈ queryCommands)
    (hc : b.constructed = false) : b.effect i = b.raise .notConstructed := by
  have hport := mem_ports_of_query h b.active
  cases i with
  | len | elementSize | writeAvailable | readAvailable =>
    exact constructedCommand_of_unconstructed hport hc
  | _ => exact absurd h (by decide)

/-- Settles O24: each output is gated by `CONSTRUCTED`, and the four commands fail their check. -/
theorem unconstructedQueryOutputsAreZero : Obligations.UnconstructedQueryOutputsAreZero := by
  intro w b i hc
  refine ⟨qRA_of_unconstructed hc, qWA_of_unconstructed hc, by simp [Body.qEmpty, hc],
    by simp [Body.qFull, hc], hc, fun hi => ?_⟩
  have hquery : i ∈ queryCommands := by simpa [queryCommands] using hi
  refine ⟨b.raise .notConstructed, ?_, answered_respondOn .., onlyResponds_respondOn ..⟩
  rw [exec_eq, effect_query_of_unconstructed hquery hc]

/-- Settles O25: both rules are a response. -/
theorem lenAndElementSizeAnswerTheConfiguration :
    Obligations.LenAndElementSizeAnswerTheConfiguration := by
  intro w b hc
  refine ⟨⟨b.ok b.cap, ?_, answered_respondOn .., onlyResponds_respondOn ..⟩,
    ⟨b.ok b.esz, ?_, answered_respondOn .., onlyResponds_respondOn ..⟩⟩
  · rw [exec_eq, Body.effect, constructedCommand_of_query (by decide) hc]
  · rw [exec_eq, Body.effect, constructedCommand_of_query (by decide) hc]

/-! ### The grants (R45, R172, R173) -/

/-- A response beside a change of the ghost state changes nothing else. -/
theorem ok_of_ghost_frame (b : Body w) (g : Ghost) (r0 : Word w) :
    let c := ({ b with ghost := g } : Body w).ok r0
    Answered (c.port b.active) 0x00 r0 0 0 0 0 ∧ c.ghost = g ∧ SameRegisters b c ∧
      SameMachines b c ∧ SameMemory b c ∧ OnlyAnswers b.active b c ∧ SameSurroundings b c :=
  ⟨answered_respondOn .., Body.ok_ghost .., by simp [SameRegisters, SameConfig],
    by simp [SameMachines], by simp [SameMemory],
    onlyAnswers_respondOn _ _ _ _ _ _ _ fun p => by cases p <;> rfl, by simp [SameSurroundings]⟩

/-- WRITE_AVAILABLE responds with `Q_WA` and grants it on port W (R172). -/
theorem writeAvailable_eq : b.writeAvailable =
    ({ b with ghost := { b.ghost with wgrant :=
      if b.active = .writer then b.qWA.toNat else b.ghost.wgrant } } : Body w).ok b.qWA := by
  unfold Body.writeAvailable
  split_ifs <;> rfl

/-- READ_AVAILABLE responds with `Q_RA` and grants it on port R (R173). -/
theorem readAvailable_eq : b.readAvailable =
    ({ b with ghost := { b.ghost with rgrant :=
      if b.active = .reader then b.qRA.toNat else b.ghost.rgrant } } : Body w).ok b.qRA := by
  unfold Body.readAvailable
  split_ifs <;> rfl

theorem qRA_of_constructed (hc : b.constructed = true) :
    b.qRA = (b.widx - b.ridx) &&& b.bmask := if_pos hc

theorem qWA_of_constructed (hc : b.constructed = true) :
    b.qWA = b.cap - ((b.widx - b.ridx) &&& b.bmask) := by
  rw [Body.qWA, if_pos hc, qRA_of_constructed hc]

/-- Settles O26: the answer is `Q_WA`, and the grant is the rule's one other effect. -/
theorem writeAvailableAnswersFreeElements : Obligations.WriteAvailableAnswersFreeElements := by
  intro w b hc
  rw [← qWA_of_constructed hc]
  refine ⟨_, ?_, ok_of_ghost_frame b _ _⟩
  rw [exec_eq, Body.effect, constructedCommand_of_query (by decide) hc, writeAvailable_eq]

/-- Settles O27: the answer is `Q_RA`, and the grant is the rule's one other effect. -/
theorem readAvailableAnswersFilledElements : Obligations.ReadAvailableAnswersFilledElements := by
  intro w b hc
  rw [← qRA_of_constructed hc]
  refine ⟨_, ?_, ok_of_ghost_frame b _ _⟩
  rw [exec_eq, Body.effect, constructedCommand_of_query (by decide) hc, readAvailable_eq]

end Sys2Proof.Machine
end

section
/-! Client buffers and the addresses of a transfer (R192, R200): a bad buffer wraps or has a byte in
common with the storage, and a transfer's bytes follow its two spans. -/

namespace Sys2Proof.Machine

variable {w : Width} {b : Body w}

/-! ### Bad buffers (R192) -/

/-- Where byte `i` of one range is byte `j` of another, `i` no more than `j`, the first range begins
`j - i` bytes into the second. -/
theorem toNat_sub_of_add_ofNat_eq {x y : Word w} {i j : Nat} (hij : i ≤ j) (hj : j < w.size)
    (h : x + BitVec.ofNat _ i = y + BitVec.ofNat _ j) : (x - y).toNat = j - i := by
  rw [← Nat.sub_add_cancel hij, BitVec.ofNat_add, ← BitVec.add_assoc, BitVec.add_left_inj] at h
  rw [h, BitVec.add_comm, BitVec.add_sub_cancel, BitVec.toNat_ofNat,
    Nat.mod_eq_of_lt (show j - i < w.size by omega)]

/-- Byte `i` of one range is byte 0 of another that begins `i` bytes into it. -/
theorem add_ofNat_toNat_sub (x y : Word w) : y + BitVec.ofNat _ (x - y).toNat = x := by
  rw [BitVec.ofNat_toNat, BitVec.setWidth_eq, BitVec.add_comm, BitVec.sub_add_cancel]

/-- Two ranges meet exactly where a byte of the one is a byte of the other, modulo `2^W` (R71). -/
theorem rangesMeet_iff {x y : Word w} {m n : Nat} (hm : m < w.size) (hn : n < w.size) :
    rangesMeet x m y n = true ↔
      ∃ i j : Nat, i < m ∧ j < n ∧ x + BitVec.ofNat _ i = y + BitVec.ofNat _ j := by
  simp only [rangesMeet, Bool.and_eq_true, Bool.or_eq_true, decide_eq_true_iff]
  constructor
  · rintro ⟨⟨h0m, h0n⟩, hd | hd⟩
    · exact ⟨0, _, h0m, hd, by rw [add_ofNat_toNat_sub]; simp⟩
    · exact ⟨_, 0, hd, h0n, by rw [add_ofNat_toNat_sub]; simp⟩
  · rintro ⟨i, j, hi, hj, h⟩
    refine ⟨⟨by omega, by omega⟩, ?_⟩
    rcases Nat.le_total i j with hij | hij
    · exact .inl (by rw [toNat_sub_of_add_ofNat_eq hij (hj.trans hn) h]; omega)
    · exact .inr (by rw [toNat_sub_of_add_ofNat_eq hij (hi.trans hm) h.symm]; omega)

/-- Settles O31: an empty buffer neither wraps nor has a byte; a range that meets the storage
shares a byte with it. -/
theorem badBuffersWrapOrMeetTheStorage : Obligations.BadBuffersWrapOrMeetTheStorage := by
  intro w b buf len hlen hstorage
  have hbuf : buf.toNat < w.size := buf.isLt
  rw [Body.badBuffer, rangeWraps, Bool.and_eq_true, Bool.or_eq_true, Bool.and_eq_true,
    rangesMeet_iff hlen hstorage, decide_eq_true_iff, decide_eq_true_iff]
  constructor
  · rintro ⟨-, ⟨-, hwrap⟩ | hmeet⟩
    · exact .inl hwrap
    · exact .inr hmeet
  · rintro (hwrap | ⟨i, j, hi, hmeet⟩)
    · exact ⟨by omega, .inl ⟨by omega, hwrap⟩⟩
    · exact ⟨by omega, .inr ⟨i, j, hi, hmeet⟩⟩

/-! ### The two spans (R200) -/

/-- Up to the end of the storage, a transfer's bytes ascend from its first slot. -/
theorem slotOffset_before_wrap {cap esz s j : Nat} (h : s % cap + j / esz < cap) :
    (s + j / esz) % cap * esz + j % esz = s % cap * esz + j := by
  rw [← Nat.mod_add_mod, Nat.mod_eq_of_lt h, Nat.add_mul, Nat.add_assoc, Nat.div_add_mod']

/-- Past the end of the storage, a transfer's bytes ascend from the storage's first byte. -/
theorem slotOffset_after_wrap {cap esz s j : Nat} (hpos : 0 < cap) (h : cap ≤ s % cap + j / esz)
    (hj : j / esz < cap) :
    (s + j / esz) % cap * esz + j % esz = j - (cap - s % cap) * esz := by
  have hs : s % cap < cap := Nat.mod_lt _ hpos
  have hle : (cap - s % cap) * esz ≤ j / esz * esz := Nat.mul_le_mul_right _ (by omega)
  have hslot : (s + j / esz) % cap = j / esz - (cap - s % cap) := by
    rw [← Nat.mod_add_mod, Nat.mod_eq_sub_mod h, Nat.mod_eq_of_lt (by omega)]
    omega
  have hj := Nat.div_add_mod' j esz
  rw [hslot, Nat.sub_mul]
  omega

/-- A configured element size is no 0 word (R36). -/
theorem Body.Configured.esz_ne_zero (h : b.Configured) : b.esz ≠ 0 := fun h0 =>
  h.elementSize.ne' (word_eq_zero_iff.1 h0)

/-- The address of byte `j` of a transfer, as an offset into the storage (R190, R195). -/
theorem Body.Configured.transferAddr_eq (h : b.Configured) (s j : Word w) :
    b.transferAddr s j = b.base + BitVec.ofNat _
      ((s.toNat + j.toNat / b.esz.toNat) % b.cap.toNat * b.esz.toNat + j.toNat % b.esz.toNat) := by
  have hcap : b.cap.toNat ∣ w.size := (Nat.dvd_mul_left ..).trans h.two_mul_cap_dvd
  have hslot : (b.slot (s + quotient j b.esz)).toNat =
      (s.toNat + j.toNat / b.esz.toNat) % b.cap.toNat := by
    rw [h.slot_toNat, BitVec.toNat_add, Nat.mod_mod_of_dvd _ hcap, quotient_toNat h.esz_ne_zero]
  rw [← hslot, ← remainder_toNat h.esz_ne_zero, BitVec.ofNat_add, BitVec.ofNat_mul]
  simp only [BitVec.ofNat_toNat, BitVec.setWidth_eq, ← BitVec.add_assoc]
  rfl

/-- Settles O20: the side of the end of the storage a byte's element stands on decides its span. -/
theorem transferAddressesFollowTheSpans : Obligations.TransferAddressesFollowTheSpans := by
  intro w b h s n j hn hj
  have hq : j.toNat / b.esz.toNat < n.toNat := (Nat.div_lt_iff_lt_mul h.elementSize).2 hj
  have hoff := h.slot_toNat s
  have hlt : s.toNat % b.cap.toNat < b.cap.toNat := Nat.mod_lt _ h.cap_pos
  rw [h.transferAddr_eq, Body.split]
  split_ifs with hone
  · rw [hoff] at hone
    dsimp only
    rw [if_pos hj, slotOffset_before_wrap (by omega), hoff]
  · have hfirst : (b.cap - b.slot s).toNat = b.cap.toNat - s.toNat % b.cap.toNat := by
      rw [BitVec.toNat_sub_of_le (by rw [BitVec.le_def]; omega), hoff]
    simp only [hfirst, ← Nat.div_lt_iff_lt_mul h.elementSize]
    split_ifs with hspan
    · rw [slotOffset_before_wrap (by omega), hoff]
    · rw [slotOffset_after_wrap h.cap_pos (by omega) (by omega)]

end Sys2Proof.Machine
end

section
/-! The accept steps of WRITE, READ and READ_INTO (R190, R195, R198): each loads its machine with
the clamped count and closes its side's grants. -/

namespace Sys2Proof.Machine

variable {w : Width} {b : Body w}

/-- From the clamp on, WRITE's accept step loads the writer machine and closes the writer's grants,
and nothing else changes. -/
theorem startWrite_loads (b : Body w) (n src : Word w) :
    let c := b.startWrite n src
    c.writer = ⟨if 0 < n.toNat * b.esz.toNat then .copy else .publish, n, 0, src⟩ ∧
      c.reader = b.reader ∧
      c.ghost = { b.ghost with
        wgrant := 0
        wzc := false
        faults := if b.badBuffer src (n.toNat * b.esz.toNat) then
          b.ghost.faults.add .bufferOverlap else b.ghost.faults } ∧
      SameRegisters b c ∧ SameMemory b c ∧ (∀ p, c.port p = b.port p) ∧ SameSurroundings b c :=
  ⟨rfl, rfl, rfl, SameRegisters.refl b, fun _ => rfl, port_eq_of_fields rfl rfl rfl, rfl, rfl, rfl⟩

/-- From the clamp on, READ's accept step loads the reader machine and closes the reader's grants,
and nothing else changes. -/
theorem startRead_loads (b : Body w) (n dst : Word w) :
    let c := b.startRead n dst
    c.reader = ⟨if 0 < n.toNat * b.esz.toNat then .copy else .publish, n, 0, dst⟩ ∧
      c.writer = b.writer ∧
      c.ghost = { b.ghost with
        rgrant := 0
        rzc := false
        faults := if b.badBuffer dst (n.toNat * b.esz.toNat) then
          b.ghost.faults.add .bufferOverlap else b.ghost.faults } ∧
      SameRegisters b c ∧ SameMemory b c ∧ (∀ p, c.port p = b.port p) ∧ SameSurroundings b c :=
  ⟨rfl, rfl, rfl, SameRegisters.refl b, fun _ => rfl, port_eq_of_fields rfl rfl rfl, rfl, rfl, rfl⟩

/-- The length of whole elements passes the data-size check (R193, R199). -/
theorem remainder_eq_zero {esz nbytes : Word w} (hesz : esz ≠ 0)
    (h : nbytes.toNat % esz.toNat = 0) : remainder nbytes esz = 0 :=
  word_eq_zero_iff.2 (by rw [remainder_toNat hesz, h])

/-- A WRITE whose data holds the count in whole elements passes both data-size checks (R193). -/
theorem acceptWrite_of_whole {src nbytes count : Word w} (hesz : b.esz ≠ 0)
    (hrem : nbytes.toNat % b.esz.toNat = 0) (hcount : count.toNat ≤ nbytes.toNat / b.esz.toNat) :
    b.acceptWrite src nbytes count = b.startWrite (b.clamp count b.qWA) src := by
  have hle : ¬ quotient nbytes b.esz < count := by
    rw [BitVec.lt_def, quotient_toNat hesz]
    exact not_lt.2 hcount
  rw [Body.acceptWrite, if_neg (not_not.2 (remainder_eq_zero hesz hrem)), if_neg hle]

/-- The accept step of WRITE. -/
theorem effect_write (hp : b.active = .writer) (hc : b.constructed = true) :
    b.effect .write = b.acceptWrite b.opa b.opb b.opc :=
  constructedCommand_of_port b (List.mem_singleton.2 hp) hc

/-- The accept step of READ. -/
theorem effect_read (hp : b.active = .reader) (hc : b.constructed = true) :
    b.effect .read = b.startRead (b.clamp b.opb b.qRA) b.opa :=
  constructedCommand_of_port b (List.mem_singleton.2 hp) hc

/-- The accept step of READ_INTO. -/
theorem effect_readInto (hp : b.active = .reader) (hc : b.constructed = true) :
    b.effect .readInto = b.acceptReadInto b.opa b.opb :=
  constructedCommand_of_port b (List.mem_singleton.2 hp) hc

/-- Settles O28: past the data-size checks the step is the loading of the writer machine. -/
theorem writeAcceptLoadsTheWriterMachine : Obligations.WriteAcceptLoadsTheWriterMachine := by
  intro w b hp hc hesz hrem hcount
  refine ⟨_, _, ?_, clamp_toNat .., startWrite_loads ..⟩
  rw [exec_eq, effect_write hp hc, acceptWrite_of_whole hesz hrem hcount]

/-- Settles O29: the step is the loading of the reader machine. -/
theorem readAcceptLoadsTheReaderMachine : Obligations.ReadAcceptLoadsTheReaderMachine := by
  intro w b hp hc
  refine ⟨_, _, ?_, clamp_toNat .., startRead_loads ..⟩
  rw [exec_eq, effect_read hp hc]

/-- Settles O30: past the data-size check the step is READ's, with the quotient as its count. -/
theorem readIntoAcceptTakesWholeElements : Obligations.ReadIntoAcceptTakesWholeElements := by
  intro w b hp hc hesz hrem
  refine ⟨_, b.clamp (quotient b.opb b.esz) b.qRA, ?_, ?_, startRead_loads ..⟩
  · rw [exec_eq, effect_readInto hp hc, Body.acceptReadInto,
      if_neg (not_not.2 (remainder_eq_zero hesz hrem)), Body.acceptRead]
  · rw [clamp_toNat, quotient_toNat hesz]

end Sys2Proof.Machine
end

section
/-! The copy and publish steps of the two port machines (R190, R191, R195), each exactly. -/

namespace Sys2Proof.Machine

variable {w : Width} {b : Body w} {rest : List (Move w)}

/-! ### The step a machine takes in its state -/

theorem stepped_copyWrite (hsched : b.sched = .machine .writer :: rest)
    (hs : b.writer.st = .copy) : b.stepped = ({ b with sched := rest } : Body w).copyWrite := by
  rw [stepped_cons b hsched]
  simp only [Body.moved, Body.machineStep, hs]

theorem stepped_publishWrite (hsched : b.sched = .machine .writer :: rest)
    (hs : b.writer.st = .publish) :
    b.stepped = ({ b with sched := rest } : Body w).publishWrite := by
  rw [stepped_cons b hsched]
  simp only [Body.moved, Body.machineStep, hs]

theorem stepped_copyRead (hsched : b.sched = .machine .reader :: rest)
    (hs : b.reader.st = .copy) : b.stepped = ({ b with sched := rest } : Body w).copyRead := by
  rw [stepped_cons b hsched]
  simp only [Body.moved, Body.machineStep, hs]

theorem stepped_publishRead (hsched : b.sched = .machine .reader :: rest)
    (hs : b.reader.st = .publish) :
    b.stepped = ({ b with sched := rest } : Body w).publishRead := by
  rw [stepped_cons b hsched]
  simp only [Body.moved, Body.machineStep, hs]

/-! ### Copy steps -/

/-- A stored byte is the byte read, and every other byte stays (R79). -/
theorem Body.Inv.putByte_reads (h : b.Inv) (x : Word w) (v : Byte) :
    memRead (b.putByte x v).mem x.toNat = v ∧
      ∀ y, y ≠ x.toNat → memRead (b.putByte x v).mem y = memRead b.mem y :=
  ⟨memRead_memWrite_self _ _ (memWf_iff.1 h.memory).1, fun _ hy => memRead_memWrite_other v hy⟩

/-- With an element size that is not 0, the address of byte `j` of a transfer is by word division. -/
theorem Body.Configured.transferAddr_eq_div (h : b.Configured) (i j : Word w) :
    b.transferAddr i j = b.slotAddr (i + j / b.esz) + j % b.esz := by
  rw [Body.transferAddr, quotient, if_neg h.esz_ne_zero, remainder, if_neg h.esz_ne_zero]

/-- Settles O32: the copy step stores one byte and counts it. -/
theorem writerCopyStepMovesOneByte : Obligations.WriterCopyStepMovesOneByte := by
  intro w b rest hi hc hsched hs
  refine ⟨({ b with sched := rest } : Body w).copyWrite, ?_, ?_, rfl, rfl, rfl,
    SameRegisters.refl b, port_eq_of_fields rfl rfl rfl, rfl, rfl⟩
  · rw [step_eq, stepped_copyWrite hsched hs]
  · rw [← (hi.constructed hc).transferAddr_eq_div]
    exact hi.putByte_reads _ _

/-- Settles O33: the copy step stores one byte and counts it. -/
theorem readerCopyStepMovesOneByte : Obligations.ReaderCopyStepMovesOneByte := by
  intro w b rest hi hc hsched hs
  refine ⟨({ b with sched := rest } : Body w).copyRead, ?_, ?_, rfl, rfl, rfl,
    SameRegisters.refl b, port_eq_of_fields rfl rfl rfl, rfl, rfl⟩
  · rw [step_eq, stepped_copyRead hsched hs]
  · rw [← (hi.constructed hc).transferAddr_eq_div]
    exact hi.putByte_reads _ _

/-! ### Publish steps -/

/-- Settles O34: each publish step is a response beside the advance of its own index. -/
theorem publishStepAdvancesItsOwnIndex : Obligations.PublishStepAdvancesItsOwnIndex := by
  intro w b rest hi hc
  have hcfg := hi.constructed hc
  refine ⟨fun hsched hs => ⟨({ b with sched := rest } : Body w).publishWrite, ?_,
      hcfg.toNat_idxAdd .., rfl, rfl, rfl, rfl, ⟨rfl, rfl, rfl, rfl, rfl, rfl⟩,
      onlyAnswers_respondOn _ _ _ _ _ _ _ (port_eq_of_fields rfl rfl rfl), SameConfig.refl b,
      fun _ => rfl, rfl, rfl⟩,
    fun hsched hs => ⟨({ b with sched := rest } : Body w).publishRead, ?_,
      hcfg.toNat_idxAdd .., rfl, rfl, rfl, rfl, ⟨rfl, rfl, rfl, rfl, rfl, rfl⟩,
      onlyAnswers_respondOn _ _ _ _ _ _ _ (port_eq_of_fields rfl rfl rfl), SameConfig.refl b,
      fun _ => rfl, rfl, rfl⟩⟩
  · rw [step_eq, stepped_publishWrite hsched hs]
  · rw [step_eq, stepped_publishRead hsched hs]

end Sys2Proof.Machine
end

section
/-! A transfer that no other agent's step interrupts (R190, R195, R303): the exact state after each
of its steps, and where its bytes stand at its end. -/

namespace Sys2Proof.Machine

variable {w : Width} {b : Body w}

/-! ### Bytes copied one after another -/

/-- The memory after `k` bytes were copied one after another, byte `j` from `src j` to `dst j`. -/
def copyBytes (m : List Host.Cell) (src dst : Nat → Nat) : Nat → List Host.Cell
  | 0 => m
  | k + 1 => memWrite (copyBytes m src dst k) (dst k) (memRead (copyBytes m src dst k) (src k))

section
variable {m : List Host.Cell} {src dst : Nat → Nat} {k : Nat}

/-- Copies leave every byte that is none of their destinations. -/
theorem memRead_copyBytes_outside {x : Nat} (h : ∀ j < k, x ≠ dst j) :
    memRead (copyBytes m src dst k) x = memRead m x := by
  induction k with
  | zero => rfl
  | succ k ih =>
    rw [copyBytes, memRead_memWrite_other _ (h k k.lt_succ_self)]
    exact ih fun j hj => h j (hj.trans k.lt_succ_self)

theorem copyBytes_pairwise (hm : m.Pairwise fun x y => x.1 < y.1) :
    (copyBytes m src dst k).Pairwise fun x y => x.1 < y.1 := by
  induction k with
  | zero => exact hm
  | succ k ih => exact memWrite_pairwise _ _ ih

/-- Where no destination is a source or another's destination, each byte arrives as it was. -/
theorem memRead_copyBytes_inside (hm : m.Pairwise fun x y => x.1 < y.1)
    (hinj : ∀ i < k, ∀ j < k, dst i = dst j → i = j) (hapart : ∀ i < k, ∀ j < k, src i ≠ dst j)
    {j : Nat} (hj : j < k) : memRead (copyBytes m src dst k) (dst j) = memRead m (src j) := by
  induction k with
  | zero => exact absurd hj (Nat.not_lt_zero j)
  | succ k ih =>
    have hk := k.lt_succ_self
    rw [copyBytes]
    rcases Nat.lt_succ_iff_lt_or_eq.1 hj with hlt | rfl
    · rw [memRead_memWrite_other _ fun he => hlt.ne (hinj j hj k hk he)]
      exact ih (fun i hi j hj => hinj i (hi.trans hk) j (hj.trans hk))
        (fun i hi j hj => hapart i (hi.trans hk) j (hj.trans hk)) hlt
    · rw [memRead_memWrite_self _ _ (copyBytes_pairwise hm)]
      exact memRead_copyBytes_outside fun i hi => hapart j hj i (hi.trans hk)

end

/-! ### Addresses of a buffer and of a transfer -/

/-- The bytes of a buffer that is not bad do not wrap (R192). -/
theorem toNat_buffer {buf : Word w} {len i : Nat} (hbad : b.badBuffer buf len = false)
    (hi : i < len) : (buf + BitVec.ofNat _ i).toNat = buf.toNat + i := by
  have hwrap : ¬ w.size < buf.toNat + len := fun h => by
    simp [Body.badBuffer, rangeWraps, h, Nat.zero_lt_of_lt hi] at hbad
  rw [BitVec.toNat_add, BitVec.toNat_ofNat, Nat.add_mod_mod,
    Nat.mod_eq_of_lt (show buf.toNat + i < w.size by omega)]

/-- Every element byte lies in the storage (R72). -/
theorem Body.Configured.offset_lt (h : b.Configured) (i : Nat) {k : Nat} (hk : k < b.esz.toNat) :
    i % b.cap.toNat * b.esz.toNat + k < b.storageBytes := by
  have hslot : (i % b.cap.toNat + 1) * b.esz.toNat ≤ b.storageBytes :=
    Nat.mul_le_mul_right _ (Nat.mod_lt i h.cap_pos)
  rw [Nat.add_one_mul] at hslot
  omega

/-- The address of an element byte, as a word. -/
theorem elementAddr_eq_toNat (b : Body w) (i k : Nat) : b.elementAddr i k =
    (b.base + BitVec.ofNat _ (i % b.cap.toNat * b.esz.toNat + k)).toNat := by
  rw [Body.elementAddr, BitVec.toNat_add, BitVec.toNat_ofNat, Nat.add_mod_mod, Nat.add_assoc]

/-- No byte of a buffer that is not bad is an element byte (R192). -/
theorem Body.Configured.buffer_ne_elementAddr (h : b.Configured) {buf : Word w} {len i e k : Nat}
    (hbad : b.badBuffer buf len = false) (hlen : len < w.size) (hi : i < len)
    (hk : k < b.esz.toNat) : (buf + BitVec.ofNat _ i).toNat ≠ b.elementAddr e k := by
  rw [elementAddr_eq_toNat]
  intro he
  exact Bool.eq_false_iff.1 hbad ((badBuffersWrapOrMeetTheStorage w b buf len hlen
    h.storageFits).2 (.inr ⟨i, _, hi, h.offset_lt e hk, BitVec.eq_of_toNat_eq he⟩))

/-- A transfer of at most `CAP` elements has its bytes at different addresses (R200). -/
theorem Body.Configured.transfer_injective (h : b.Configured)
    (hu : b.base.toNat + b.storageBytes ≤ w.size) {n log i j : Nat} (hn : n ≤ b.cap.toNat)
    (hi : i < n * b.esz.toNat) (hj : j < n * b.esz.toNat)
    (heq : b.elementAddr (log + i / b.esz.toNat) (i % b.esz.toNat) =
      b.elementAddr (log + j / b.esz.toNat) (j % b.esz.toNat)) : i = j := by
  have hmod (x : Nat) : x % b.esz.toNat < b.esz.toNat := Nat.mod_lt x h.elementSize
  have hslot := h.slot_eq_of_elementAddr_eq hu (hmod i) (hmod j) heq
  have hlt {x : Nat} (hx : x < n * b.esz.toNat) : x / b.esz.toNat < b.cap.toNat :=
    ((Nat.div_lt_iff_lt_mul h.elementSize).2 hx).trans_le hn
  have hdiv : i / b.esz.toNat = j / b.esz.toNat :=
    (Nat.ModEq.add_left_cancel' log hslot).eq_of_lt_of_lt (hlt hi) (hlt hj)
  rw [h.elementAddr_eq hu _ (hmod i), h.elementAddr_eq hu _ (hmod j), hslot] at heq
  rw [← Nat.div_add_mod i b.esz.toNat, ← Nat.div_add_mod j b.esz.toNat, hdiv]
  omega

/-- The address of byte `j` of a transfer, for a number of bytes that is exact. -/
theorem Body.Configured.toNat_transferAddr_ofNat (h : b.Configured) {i : Word w} {log j : Nat}
    (hi : i.toNat = log % (2 * b.cap.toNat)) (hj : j < w.size) :
    (b.transferAddr i (BitVec.ofNat _ j)).toNat =
      b.elementAddr (log + j / b.esz.toNat) (j % b.esz.toNat) := by
  rw [h.transferAddr_toNat hi, BitVec.toNat_ofNat, Nat.mod_eq_of_lt hj]

/-! ### A machine's steps -/

/-- A port machine after `k` of the bytes of a transfer it was loaded for. -/
def PortMachine.progress (n buf esz : Word w) (k : Nat) : PortMachine w :=
  ⟨if k < n.toNat * esz.toNat then .copy else .publish, n, BitVec.ofNat _ k, buf⟩

theorem PortMachine.progress_busy (n buf esz : Word w) (k : Nat) :
    (PortMachine.progress n buf esz k).st ≠ .idle := by
  unfold PortMachine.progress
  split_ifs <;> exact nofun

/-- A copied byte takes the machine one further: the `W`-bit count is exact (R191). -/
theorem PortMachine.moved_progress {n buf esz : Word w} {k : Nat} (hk : k < n.toNat * esz.toNat)
    (hfit : n.toNat * esz.toNat < w.size) :
    (PortMachine.progress n buf esz k).moved esz = .progress n buf esz (k + 1) := by
  have hcount : (BitVec.ofNat w.bits k + 1 : Word w) = BitVec.ofNat _ (k + 1) :=
    (BitVec.ofNat_add ..).symm
  have hexact : (BitVec.ofNat w.bits (k + 1)).toNat = k + 1 :=
    Nat.mod_eq_of_lt (show k + 1 < w.size by omega)
  have hlast : (if k + 1 = n.toNat * esz.toNat then Phase.publish else .copy) =
      if k + 1 < n.toNat * esz.toNat then .copy else .publish := by
    rcases Nat.lt_or_eq_of_le (Nat.succ_le_of_lt hk) with hlt | heq
    · rw [if_neg hlt.ne, if_pos hlt]
    · rw [if_pos heq, if_neg heq.not_lt]
  simp only [PortMachine.moved, PortMachine.progress, hcount, hexact, hlast]

/-- `b`, whose writer machine was just loaded for `n` elements at `src`, after `k` copy steps, with
the rest of its steps to come. -/
def Body.writing (b : Body w) (n src : Word w) (k : Nat) : Body w :=
  { b with
    mem := copyBytes b.mem (fun j => (src + BitVec.ofNat _ j).toNat)
      (fun j => (b.transferAddr b.widx (BitVec.ofNat _ j)).toNat) k
    writer := .progress n src b.esz k
    sched := List.replicate (n.toNat * b.esz.toNat + 1 - k) (.machine .writer) }

/-- `b`, whose reader machine was just loaded for `n` elements to `dst`, after `k` copy steps, with
the rest of its steps to come. -/
def Body.reading (b : Body w) (n dst : Word w) (k : Nat) : Body w :=
  { b with
    mem := copyBytes b.mem (fun j => (b.transferAddr b.ridx (BitVec.ofNat _ j)).toNat)
      (fun j => (dst + BitVec.ofNat _ j).toNat) k
    reader := .progress n dst b.esz k
    sched := List.replicate (n.toNat * b.esz.toNat + 1 - k) (.machine .reader) }

section
variable {n buf : Word w} {k : Nat}

theorem replicate_sub_eq_cons {α : Type} (x : α) {m : Nat} (h : k < m) :
    List.replicate (m - k) x = x :: List.replicate (m - (k + 1)) x := by
  rw [← List.replicate_succ]
  congr 1
  omega

theorem stepped_writing (hfit : n.toNat * b.esz.toNat < w.size) (hk : k < n.toNat * b.esz.toNat) :
    (b.writing n buf k).stepped = b.writing n buf (k + 1) := by
  have hsched : (b.writing n buf k).sched =
      .machine .writer :: (b.writing n buf (k + 1)).sched :=
    replicate_sub_eq_cons _ (hk.trans (Nat.lt_succ_self _))
  rw [stepped_copyWrite hsched (if_pos hk), Body.copyWrite]
  simp only [Body.writing, PortMachine.moved_progress hk hfit]
  rfl

theorem stepped_reading (hfit : n.toNat * b.esz.toNat < w.size) (hk : k < n.toNat * b.esz.toNat) :
    (b.reading n buf k).stepped = b.reading n buf (k + 1) := by
  have hsched : (b.reading n buf k).sched =
      .machine .reader :: (b.reading n buf (k + 1)).sched :=
    replicate_sub_eq_cons _ (hk.trans (Nat.lt_succ_self _))
  rw [stepped_copyRead hsched (if_pos hk), Body.copyRead]
  simp only [Body.reading, PortMachine.moved_progress hk hfit]
  rfl

/-- Steps that take each state of a row to the next take the first to any of them. -/
theorem iterate_stepped {f : Nat → Body w} {m : Nat} (h : ∀ k < m, (f k).stepped = f (k + 1))
    (hk : k ≤ m) : Body.stepped^[k] (f 0) = f k := by
  induction k with
  | zero => rfl
  | succ k ih => rw [Function.iterate_succ_apply', ih (Nat.le_of_succ_le hk), h k hk]

end

/-- A run takes its first step and goes on. -/
theorem core_run_succ (M : Host.Core) {s t : M.State} (h : M.step s = .next t) (k : Nat) :
    M.run (k + 1) s = M.run k t := by
  rw [Host.Core.run, h]

/-- A run of the machine is the iteration of its step. -/
theorem core_run_eq (b : Body w) (k : Nat) :
    Sys2Proof.core.run k (State.mk w b) = .next (State.mk w (Body.stepped^[k] b)) := by
  induction k generalizing b with
  | zero => rfl
  | succ k ih =>
    rw [core_run_succ Sys2Proof.core (step_eq b), Function.iterate_succ_apply]
    exact ih _

section
variable {n buf : Word w} {rest : List (Move w)}

/-! ### The bytes of a finished transfer -/

/-- What a transfer of `n` elements between the ring and the client's buffer rests on: storage that
does not wrap, room for the elements, and a buffer that is not bad. -/
structure Body.CanTransfer (b : Body w) (n buf : Word w) : Prop where
  memory : memWf w b.mem = true
  configured : b.Configured
  unwrapped : b.base.toNat + b.storageBytes ≤ w.size
  count : n.toNat ≤ b.cap.toNat
  buffer : b.badBuffer buf (n.toNat * b.esz.toNat) = false

theorem Body.CanTransfer.fits (h : b.CanTransfer n buf) : n.toNat * b.esz.toNat < w.size :=
  (Nat.mul_le_mul_right _ h.count).trans_lt h.configured.storageFits

theorem Body.CanTransfer.buffer_ne (h : b.CanTransfer n buf) {i : Nat}
    (hi : i < n.toNat * b.esz.toNat) (log j : Nat) : (buf + BitVec.ofNat _ i).toNat ≠
      b.elementAddr (log + j / b.esz.toNat) (j % b.esz.toNat) :=
  h.configured.buffer_ne_elementAddr h.buffer h.fits hi (Nat.mod_lt _ h.configured.elementSize)

theorem Body.CanTransfer.writeAddr (h : b.CanTransfer n buf) {j : Nat}
    (hj : j < n.toNat * b.esz.toNat) : (b.transferAddr b.widx (BitVec.ofNat _ j)).toNat =
      b.elementAddr (b.ghost.wlog + j / b.esz.toNat) (j % b.esz.toNat) :=
  h.configured.toNat_transferAddr_ofNat h.configured.writeIndex (hj.trans h.fits)

theorem Body.CanTransfer.readAddr (h : b.CanTransfer n buf) {j : Nat}
    (hj : j < n.toNat * b.esz.toNat) : (b.transferAddr b.ridx (BitVec.ofNat _ j)).toNat =
      b.elementAddr (b.ghost.rlog + j / b.esz.toNat) (j % b.esz.toNat) :=
  h.configured.toNat_transferAddr_ofNat h.configured.readIndex (hj.trans h.fits)

/-- Byte `j` of the client's data stands at its element after the copies (R190, R200). -/
theorem Body.CanTransfer.memRead_writing (h : b.CanTransfer n buf) {j : Nat}
    (hj : j < n.toNat * b.esz.toNat) :
    memRead (b.writing n buf (n.toNat * b.esz.toNat)).mem
      (b.elementAddr (b.ghost.wlog + j / b.esz.toNat) (j % b.esz.toNat)) =
        memRead b.mem (buf.toNat + j) := by
  rw [← h.writeAddr hj, ← toNat_buffer h.buffer hj]
  refine memRead_copyBytes_inside (memWf_iff.1 h.memory).1 (fun i hi k hk he => ?_)
    (fun i hi k hk => ?_) hj
  · rw [h.writeAddr hi, h.writeAddr hk] at he
    exact h.configured.transfer_injective h.unwrapped h.count hi hk he
  · rw [h.writeAddr hk]
    exact h.buffer_ne hi _ k

/-- The copies of a WRITE leave every byte that is none of its elements'. -/
theorem Body.CanTransfer.memRead_writing_outside (h : b.CanTransfer n buf) {x : Nat}
    (hx : ∀ j < n.toNat * b.esz.toNat,
      x ≠ b.elementAddr (b.ghost.wlog + j / b.esz.toNat) (j % b.esz.toNat)) :
    memRead (b.writing n buf (n.toNat * b.esz.toNat)).mem x = memRead b.mem x :=
  memRead_copyBytes_outside fun j hj => by
    rw [h.writeAddr hj]
    exact hx j hj

/-- Byte `j` of the oldest elements stands in the client's buffer after the copies (R195, R200). -/
theorem Body.CanTransfer.memRead_reading (h : b.CanTransfer n buf) {j : Nat}
    (hj : j < n.toNat * b.esz.toNat) :
    memRead (b.reading n buf (n.toNat * b.esz.toNat)).mem (buf.toNat + j) =
      b.elementByte (b.ghost.rlog + j / b.esz.toNat) (j % b.esz.toNat) := by
  rw [elementByte_eq, ← h.readAddr hj, ← toNat_buffer h.buffer hj]
  refine memRead_copyBytes_inside (memWf_iff.1 h.memory).1 (fun i hi k hk he => ?_)
    (fun i hi k hk => ?_) hj
  · rw [toNat_buffer h.buffer hi, toNat_buffer h.buffer hk] at he
    exact Nat.add_left_cancel he
  · rw [h.readAddr hi]
    exact (h.buffer_ne hk _ i).symm

/-- The copies of a READ leave every byte outside the client's buffer. -/
theorem Body.CanTransfer.memRead_reading_outside (h : b.CanTransfer n buf) {x : Nat}
    (hx : ¬ (buf.toNat ≤ x ∧ x < buf.toNat + n.toNat * b.esz.toNat)) :
    memRead (b.reading n buf (n.toNat * b.esz.toNat)).mem x = memRead b.mem x :=
  memRead_copyBytes_outside fun j hj => by
    rw [toNat_buffer h.buffer hj]
    omega

theorem Body.Sound.canTransfer (hs : b.Sound) (hf : b.ghost.faults = .empty)
    (hk : b.constructed = true) (hn : n.toNat ≤ b.cap.toNat)
    (hbad : b.badBuffer buf (n.toNat * b.esz.toNat) = false) : b.CanTransfer n buf :=
  ⟨hs.inv.memory, hs.inv.constructed hk, (hs.clean hf).unwrapped hk, hn, hbad⟩

/-! ### The steps of a transfer -/

theorem writing_zero (hw : b.writer = .start n buf b.esz)
    (hs : b.sched = List.replicate (n.toNat * b.esz.toNat + 1) (.machine .writer)) :
    b.writing n buf 0 = b := by
  show ({ b with
    writer := .start n buf b.esz
    sched := List.replicate (n.toNat * b.esz.toNat + 1) (.machine .writer) } : Body w) = b
  rw [← hw, ← hs]

theorem reading_zero (hr : b.reader = .start n buf b.esz)
    (hs : b.sched = List.replicate (n.toNat * b.esz.toNat + 1) (.machine .reader)) :
    b.reading n buf 0 = b := by
  show ({ b with
    reader := .start n buf b.esz
    sched := List.replicate (n.toNat * b.esz.toNat + 1) (.machine .reader) } : Body w) = b
  rw [← hr, ← hs]

/-- A WRITE's steps after its accept step: one for each byte (R191). -/
theorem iterate_of_loaded_writer {k : Nat} (hfit : n.toNat * b.esz.toNat < w.size)
    (hw : b.writer = .start n buf b.esz)
    (hs : b.sched = List.replicate (n.toNat * b.esz.toNat + 1) (.machine .writer))
    (hk : k ≤ n.toNat * b.esz.toNat) : Body.stepped^[k] b = b.writing n buf k := by
  have hrow := iterate_stepped (f := b.writing n buf) (fun _ => stepped_writing hfit) hk
  rwa [writing_zero hw hs] at hrow

/-- A READ's steps after its accept step: one for each byte (R191). -/
theorem iterate_of_loaded_reader {k : Nat} (hfit : n.toNat * b.esz.toNat < w.size)
    (hr : b.reader = .start n buf b.esz)
    (hs : b.sched = List.replicate (n.toNat * b.esz.toNat + 1) (.machine .reader))
    (hk : k ≤ n.toNat * b.esz.toNat) : Body.stepped^[k] b = b.reading n buf k := by
  have hrow := iterate_stepped (f := b.reading n buf) (fun _ => stepped_reading hfit) hk
  rwa [reading_zero hr hs] at hrow

/-- The step that accepts a command is the command's accept step on the machine that took it. -/
theorem stepped_accept_command {p : PortId} {i : Instr} (hs : b.sched = .accept p :: rest)
    (hp : (b.port p).presented = true) (hidle : MachineIdle b p)
    (hw : (b.port p).lines.word = encode i) :
    b.stepped = (({ b with sched := rest } : Body w).accept p).effect i := by
  rw [stepped_accept hs hp hidle, Body.accepted, port_sched, hw, decode_encode]

/-- A loaded writer machine's last step, after its copies, publishes and answers (R190). -/
theorem finish_of_loaded_writer (h : b.CanTransfer n buf) (hw : b.writer = .start n buf b.esz)
    (hs : b.sched = List.replicate (n.toNat * b.esz.toNat + 1) (.machine .writer)) :
    Body.stepped^[n.toNat * b.esz.toNat + 1] b =
      ({ b.writing n buf (n.toNat * b.esz.toNat) with sched := [] } : Body w).publishWrite := by
  rw [Function.iterate_succ_apply', iterate_of_loaded_writer h.fits hw hs le_rfl]
  exact stepped_publishWrite (by simp [Body.writing]) (if_neg (lt_irrefl _))

/-- A loaded reader machine's last step, after its copies, publishes and answers (R195). -/
theorem finish_of_loaded_reader (h : b.CanTransfer n buf) (hr : b.reader = .start n buf b.esz)
    (hs : b.sched = List.replicate (n.toNat * b.esz.toNat + 1) (.machine .reader)) :
    Body.stepped^[n.toNat * b.esz.toNat + 1] b =
      ({ b.reading n buf (n.toNat * b.esz.toNat) with sched := [] } : Body w).publishRead := by
  rw [Function.iterate_succ_apply', iterate_of_loaded_reader h.fits hr hs le_rfl]
  exact stepped_publishRead (by simp [Body.reading]) (if_neg (lt_irrefl _))

end

end Sys2Proof.Machine
end

section
/-! The uninterrupted WRITE and READ from their presentation to their response (R303, R338). -/

namespace Sys2Proof.Machine

variable {w : Width} {b : Body w} {n : Word w} {rest : List (Move w)}

/-- `b` after it accepted a WRITE of `n` elements from a buffer that is not bad (R190). -/
def Body.loadedWriter (b : Body w) (n : Word w) (rest : List (Move w)) : Body w :=
  { b with
    writer := .start n b.portW.lines.opa b.esz
    ghost := { b.ghost with wgrant := 0, wzc := false }
    portW := { b.portW with presented := false }
    active := .writer
    sched := rest }

/-- `b` after it accepted a READ of `n` elements to a buffer that is not bad (R195). -/
def Body.loadedReader (b : Body w) (n : Word w) (rest : List (Move w)) : Body w :=
  { b with
    reader := .start n b.portR.lines.opa b.esz
    ghost := { b.ghost with rgrant := 0, rzc := false }
    portR := { b.portR with presented := false }
    active := .reader
    sched := rest }

theorem startWrite_of_buffer {src : Word w} (h : b.badBuffer src (n.toNat * b.esz.toNat) = false) :
    b.startWrite n src = { b.setWriteGrant 0 false with writer := .start n src b.esz } := by
  rw [Body.startWrite, h]
  rfl

theorem startRead_of_buffer {dst : Word w} (h : b.badBuffer dst (n.toNat * b.esz.toNat) = false) :
    b.startRead n dst = { b.setReadGrant 0 false with reader := .start n dst b.esz } := by
  rw [Body.startRead, h]
  rfl

/-- The accept step of a WRITE presented on an idle port, in an unfaulted state (R190): the writer
machine is loaded with as many elements as were asked for and are free. -/
theorem stepped_accept_write (hs : b.Sound) (hf : b.ghost.faults = .empty)
    (hk : b.constructed = true) (hp : b.portW.presented = true)
    (hword : b.portW.lines.word = encode .write) (hidle : b.writer.st = .idle)
    (hrem : b.portW.lines.opb.toNat % b.esz.toNat = 0)
    (hcount : b.portW.lines.opc.toNat ≤ b.portW.lines.opb.toNat / b.esz.toNat)
    (hn : n.toNat = min b.portW.lines.opc.toNat (b.cap.toNat - b.filled))
    (hbad : b.badBuffer b.portW.lines.opa (n.toNat * b.esz.toNat) = false)
    (hsched : b.sched = .accept .writer :: rest) : b.stepped = b.loadedWriter n rest := by
  have hclamp : b.clamp b.portW.lines.opc b.qWA = n := by
    refine BitVec.eq_of_toNat_eq ?_
    rw [clamp_toNat, qWA_toNat_eq_free hs.inv (hs.clean hf) hk]
    omega
  let c : Body w := ({ b with sched := rest } : Body w).accept .writer
  calc b.stepped = c.effect .write :=
        stepped_accept_command hsched hp ⟨fun _ => hidle, nofun⟩ hword
    _ = c.acceptWrite b.portW.lines.opa b.portW.lines.opb b.portW.lines.opc :=
        effect_write (b := c) rfl hk
    _ = c.startWrite (b.clamp b.portW.lines.opc b.qWA) b.portW.lines.opa :=
        acceptWrite_of_whole (b := c) (hs.inv.constructed hk).esz_ne_zero hrem hcount
    _ = c.startWrite n b.portW.lines.opa := by rw [hclamp]
    _ = b.loadedWriter n rest := startWrite_of_buffer (b := c) hbad

/-- The accept step of a READ presented on an idle port, in an unfaulted state (R195): the reader
machine is loaded with as many elements as were asked for and are filled. -/
theorem stepped_accept_read (hs : b.Sound) (hf : b.ghost.faults = .empty)
    (hk : b.constructed = true) (hp : b.portR.presented = true)
    (hword : b.portR.lines.word = encode .read) (hidle : b.reader.st = .idle)
    (hn : n.toNat = min b.portR.lines.opb.toNat b.filled)
    (hbad : b.badBuffer b.portR.lines.opa (n.toNat * b.esz.toNat) = false)
    (hsched : b.sched = .accept .reader :: rest) : b.stepped = b.loadedReader n rest := by
  have hcap := ((hs.clean hf).ordered hk).2
  have hclamp : b.clamp b.portR.lines.opb b.qRA = n := by
    refine BitVec.eq_of_toNat_eq ?_
    rw [clamp_toNat, qRA_toNat_eq_filled hs.inv (hs.clean hf) hk]
    omega
  let c : Body w := ({ b with sched := rest } : Body w).accept .reader
  calc b.stepped = c.effect .read :=
        stepped_accept_command hsched hp ⟨nofun, fun _ => hidle⟩ hword
    _ = c.startRead (b.clamp b.portR.lines.opb b.qRA) b.portR.lines.opa :=
        effect_read (b := c) rfl hk
    _ = c.startRead n b.portR.lines.opa := by rw [hclamp]
    _ = b.loadedReader n rest := startRead_of_buffer (b := c) hbad

/-! ### From the accept step to the response -/

theorem Body.CanTransfer.loadedWriter {buf : Word w} (h : b.CanTransfer n buf) :
    (b.loadedWriter n rest).CanTransfer n buf :=
  ⟨h.memory, { h.configured with }, h.unwrapped, h.count, h.buffer⟩

theorem Body.CanTransfer.loadedReader {buf : Word w} (h : b.CanTransfer n buf) :
    (b.loadedReader n rest).CanTransfer n buf :=
  ⟨h.memory, { h.configured with }, h.unwrapped, h.count, h.buffer⟩

/-- Settles O35: the accept step loads the machine, each copy step takes it one byte further, and
the publish step answers; the copies put each byte at its element. -/
theorem uninterruptedWriteCopiesItsData : Obligations.UninterruptedWriteCopiesItsData := by
  intro w b n hs hf hk hp hword hidle hrem hcount hn hbad hsched
  have hlt : n < w.size := hn ▸ (min_le_left _ _).trans_lt b.portW.lines.opc.isLt
  obtain ⟨n, rfl⟩ : ∃ m : Word w, m.toNat = n := ⟨.ofNat _ n, Nat.mod_eq_of_lt hlt⟩
  have hstep := stepped_accept_write hs hf hk hp hword hidle hrem hcount hn hbad hsched
  have hb : b.CanTransfer n b.portW.lines.opa := hs.canTransfer hf hk (by omega) hbad
  have hd := hb.loadedWriter (rest := List.replicate (n.toNat * b.esz.toNat + 1) (.machine .writer))
  have hcfg := hb.configured
  refine ⟨fun k h1 h2 => ⟨_, core_run_eq b k, ?_⟩, _, core_run_eq b _, ?_⟩
  · obtain ⟨k, rfl⟩ := Nat.exists_eq_add_of_le' h1
    rw [Function.iterate_succ_apply, hstep,
      iterate_of_loaded_writer hd.fits rfl rfl (show k ≤ n.toNat * b.esz.toNat by omega)]
    exact PortMachine.progress_busy n _ _ k
  · have hlast : Body.stepped^[n.toNat * b.esz.toNat + 1] (b.loadedWriter n _) = _ :=
      finish_of_loaded_writer hd rfl rfl
    have haddr (j : Nat) : b.base.toNat + (b.ghost.wlog + j / b.esz.toNat) % b.cap.toNat *
        b.esz.toNat + j % b.esz.toNat =
          b.elementAddr (b.ghost.wlog + j / b.esz.toNat) (j % b.esz.toNat) := by
      rw [hcfg.elementAddr_eq hb.unwrapped _ (Nat.mod_lt j hcfg.elementSize), Nat.add_assoc,
        Nat.mul_comm]
    rw [Function.iterate_succ_apply, hstep, hlast]
    simp only [haddr, BitVec.ofNat_toNat, BitVec.setWidth_eq]
    exact ⟨⟨rfl, rfl, rfl, rfl, rfl, rfl⟩, rfl, hcfg.idxAdd_toNat hcfg.writeIndex n, rfl, hf, rfl,
      rfl, rfl, SameConfig.refl b, rfl, fun j hj => hd.memRead_writing hj,
      fun x hx => hd.memRead_writing_outside hx⟩

/-! ### The contents as one row of bytes -/

/-- `m` rows of `e` bytes are one row of `m*e`. -/
theorem flatMap_map_range {α : Type} (f : Nat → Nat → α) (m : Nat) {e : Nat} (he : 0 < e) :
    (List.range m).flatMap (fun d => (List.range e).map (f d)) =
      (List.range (m * e)).map fun j => f (j / e) (j % e) := by
  induction m with
  | zero => simp
  | succ m ih =>
    have hrow : (List.range e).map (f m) =
        (List.range e).map fun k => f ((m * e + k) / e) ((m * e + k) % e) := by
      refine List.map_congr_left fun k hk => ?_
      have hlt := List.mem_range.1 hk
      rw [Nat.mul_comm, Nat.mul_add_div he, Nat.mul_add_mod, Nat.div_eq_of_lt hlt,
        Nat.mod_eq_of_lt hlt, Nat.add_zero]
    rw [List.range_succ, List.flatMap_append, ih, List.flatMap_singleton, hrow, Nat.add_one_mul,
      List.range_add, List.map_append, List.map_map]
    rfl

/-- Byte `j` of the contents is byte `j mod ESZ` of logical element `RLOG + j/ESZ` (R72). -/
theorem Body.Configured.contents_eq_map (h : b.Configured) : b.contents =
    (List.range (b.filled * b.esz.toNat)).map fun j =>
      b.elementByte (b.ghost.rlog + j / b.esz.toNat) (j % b.esz.toNat) :=
  flatMap_map_range (fun d => b.elementByte (b.ghost.rlog + d)) _ h.elementSize

/-- Settles O36: the accept step loads the machine, each copy step takes it one byte further, and
the publish step answers; the copied bytes are the front of the contents. -/
theorem uninterruptedReadDeliversTheOldestElements :
    Obligations.UninterruptedReadDeliversTheOldestElements := by
  intro w b n hs hf hk hp hword hidle hn hbad hsched
  have hlt : n < w.size := hn ▸ (min_le_left _ _).trans_lt b.portR.lines.opb.isLt
  obtain ⟨n, rfl⟩ : ∃ m : Word w, m.toNat = n := ⟨.ofNat _ n, Nat.mod_eq_of_lt hlt⟩
  have hstep := stepped_accept_read hs hf hk hp hword hidle hn hbad hsched
  have hfilled : n.toNat ≤ b.filled := hn ▸ min_le_right _ _
  have hb : b.CanTransfer n b.portR.lines.opa :=
    hs.canTransfer hf hk (hfilled.trans ((hs.clean hf).ordered hk).2) hbad
  have hd := hb.loadedReader (rest := List.replicate (n.toNat * b.esz.toNat + 1) (.machine .reader))
  have hcfg := hb.configured
  refine ⟨fun k h1 h2 => ⟨_, core_run_eq b k, ?_⟩, _, core_run_eq b _, ?_⟩
  · obtain ⟨k, rfl⟩ := Nat.exists_eq_add_of_le' h1
    rw [Function.iterate_succ_apply, hstep,
      iterate_of_loaded_reader hd.fits rfl rfl (show k ≤ n.toNat * b.esz.toNat by omega)]
    exact PortMachine.progress_busy n _ _ k
  · have hlast : Body.stepped^[n.toNat * b.esz.toNat + 1] (b.loadedReader n _) = _ :=
      finish_of_loaded_reader hd rfl rfl
    have hfront : b.contents.take (n.toNat * b.esz.toNat) = (List.range (n.toNat * b.esz.toNat)).map
        fun j => b.elementByte (b.ghost.rlog + j / b.esz.toNat) (j % b.esz.toNat) := by
      rw [hcfg.contents_eq_map, ← List.map_take, List.take_range,
        Nat.min_eq_left (Nat.mul_le_mul_right _ hfilled)]
    rw [Function.iterate_succ_apply, hstep, hlast, hfront, BitVec.ofNat_toNat, BitVec.setWidth_eq]
    exact ⟨⟨rfl, rfl, rfl, rfl, rfl, rfl⟩, rfl, hcfg.idxAdd_toNat hcfg.readIndex n, rfl, hf, rfl,
      rfl, rfl, SameConfig.refl b, rfl,
      List.map_congr_left fun j hj => hd.memRead_reading (List.mem_range.1 hj),
      fun x hx => hd.memRead_reading_outside hx⟩

end Sys2Proof.Machine
end

section
/-! The block is a queue (R201): each step keeps the readable elements, appends behind them, takes
away from their front, or empties them. -/

namespace Sys2Proof.Machine

variable {w : Width} {b c : Body w}

/-! ### The contents by elements -/

/-- The bytes of logical element `i` (R72). -/
def Body.elementBytes (b : Body w) (i : Nat) : List Byte :=
  (List.range b.esz.toNat).map (b.elementByte i)

theorem contents_eq_flatMap (b : Body w) :
    b.contents = (List.range' b.ghost.rlog b.filled).flatMap b.elementBytes := by
  rw [List.range'_eq_map_range, List.flatMap_map]
  rfl

theorem contents_of_filled_eq_zero (h : b.filled = 0) : b.contents = [] := by
  rw [contents_eq_flatMap, h]
  rfl

/-- An unconstructed block holds no byte: its element size is 0 (R50). -/
theorem Body.Inv.contents_of_unconstructed (h : b.Inv) (hk : b.constructed = false) :
    b.contents = [] := by
  obtain ⟨-, -, -, -, -, hesz, -⟩ := h.unconstructed hk
  simp [Body.contents, hesz]

/-- `c` holds the readable elements of `b` as they are (R91). -/
def Body.KeepsReadable (b c : Body w) : Prop :=
  ∀ i, b.ghost.rlog ≤ i → i < b.ghost.wlog → c.elementBytes i = b.elementBytes i

/-- Elements behind the readable ones are appended. -/
theorem contents_append {n : Nat} (hkeep : b.KeepsReadable c) (hle : b.ghost.rlog ≤ b.ghost.wlog)
    (hr : c.ghost.rlog = b.ghost.rlog) (hw : c.ghost.wlog = b.ghost.wlog + n) :
    c.contents = b.contents ++ (List.range' b.ghost.wlog n).flatMap c.elementBytes := by
  have hend : b.ghost.rlog + b.filled = b.ghost.wlog := Nat.add_sub_cancel' hle
  have hfilled : c.filled = b.filled + n := by
    rw [Body.filled, hr, hw]
    omega
  rw [contents_eq_flatMap, contents_eq_flatMap, hfilled, hr, ← List.range'_append_1,
    List.flatMap_append, hend]
  congr 1
  refine List.flatMap_congr fun i hi => ?_
  obtain ⟨h1, h2⟩ := List.mem_range'_1.1 hi
  exact hkeep i h1 (hend ▸ h2)

/-- Elements the read index passes are taken away from the front. -/
theorem contents_take {n : Nat} (hkeep : b.KeepsReadable c) (hle : c.ghost.rlog ≤ c.ghost.wlog)
    (hr : c.ghost.rlog = b.ghost.rlog + n) (hw : c.ghost.wlog = b.ghost.wlog) :
    b.contents = (List.range' b.ghost.rlog n).flatMap b.elementBytes ++ c.contents := by
  have hend : c.ghost.rlog + c.filled = b.ghost.wlog := (Nat.add_sub_cancel' hle).trans hw
  have hfilled : b.filled = n + c.filled := by
    rw [Body.filled, ← hend, hr]
    omega
  rw [contents_eq_flatMap, contents_eq_flatMap, hfilled, ← List.range'_append_1,
    List.flatMap_append, ← hr]
  congr 1
  refine List.flatMap_congr fun i hi => ?_
  obtain ⟨h1, h2⟩ := List.mem_range'_1.1 hi
  exact (hkeep i (by omega) (hend ▸ h2)).symm

/-! ### What a step does to the logical indices -/

/-- What the move `m` may do to the logical indices: keep the configuration and add elements behind
the readable ones (the writer's side) or pass some at their front (the reader's side), or leave none
(port C). -/
inductive QueueMove (b c : Body w) (m : Move w) : Prop
  | keeps (hc : SameConfig b c) (hr : c.ghost.rlog = b.ghost.rlog)
      (hw : c.ghost.wlog = b.ghost.wlog)
  | appends (n : Nat) (hm : m = .machine .writer ∨ m = .accept .writer) (hc : SameConfig b c)
      (hr : c.ghost.rlog = b.ghost.rlog) (hw : c.ghost.wlog = b.ghost.wlog + n)
  | takes (n : Nat) (hm : m = .machine .reader ∨ m = .accept .reader) (hc : SameConfig b c)
      (hr : c.ghost.rlog = b.ghost.rlog + n) (hw : c.ghost.wlog = b.ghost.wlog)
  | empties (hm : m = .accept .control) (hf : c.filled = 0)

theorem Body.Runs.queueMove {i : Instr} (h : b.Runs i c) : QueueMove b c (.accept b.active) := by
  cases h with
  | advancesWrite n hp => exact .appends n.toNat (.inr (hp ▸ rfl)) (SameConfig.refl b) rfl rfl
  | advancesRead n hp => exact .takes n.toNat (.inr (hp ▸ rfl)) (SameConfig.refl b) rfl rfl
  | constructsOwned hp | constructsBorrowed hp | flushes hp | destroys hp =>
    exact .empties (hp ▸ rfl) rfl
  | _ => exact .keeps (SameConfig.refl b) rfl rfl

theorem QueueMove.of_alike {a d : Body w} {m : Move w} (h : QueueMove a c m) (hb : b.Alike a)
    (hd : c.Alike d) : QueueMove b d m := by
  have hfilled : d.filled = c.filled := by rw [Body.filled, hd.ghost, Body.filled]
  have hconfig (hc : SameConfig a c) : SameConfig b d := (hb.config.trans hc).trans hd.config
  cases h with
  | keeps hc hr hw =>
    exact .keeps (hconfig hc) (by rwa [hd.ghost, ← hb.ghost]) (by rwa [hd.ghost, ← hb.ghost])
  | appends n hm hc hr hw =>
    exact .appends n hm (hconfig hc) (by rwa [hd.ghost, ← hb.ghost]) (by rwa [hd.ghost, ← hb.ghost])
  | takes n hm hc hr hw =>
    exact .takes n hm (hconfig hc) (by rwa [hd.ghost, ← hb.ghost]) (by rwa [hd.ghost, ← hb.ghost])
  | empties hm hf => exact .empties hm (hfilled.trans hf)

theorem Body.Acts.queueMove {m : Move w} (h : b.Acts m c) : QueueMove b c m := by
  cases h with
  | publishesWrite => exact .appends _ (.inl rfl) (SameConfig.refl b) rfl rfl
  | publishesRead => exact .takes _ (.inl rfl) (SameConfig.refl b) rfl rfl
  | @accepts p _ _ _ _ h => exact h.queueMove.of_alike (b.alike_accept p) c.alike_refl
  | _ => exact .keeps (SameConfig.refl b) rfl rfl

/-! ### What a step does to the bytes of the readable elements -/

/-- An element byte lies in the storage, in its element's slot (R72). -/
theorem Body.Configured.inStorage_elementAddr (h : b.Configured) (hk : b.constructed = true)
    {x : Word w} {i k : Nat} (hkb : k < b.esz.toNat) (hx : b.elementAddr i k = x.toNat) :
    b.inStorage x = true ∧ b.slotOfByte x = i % b.cap.toNat := by
  have hlt := h.offset_lt i hkb
  have hoff : (x - b.base).toNat = i % b.cap.toNat * b.esz.toNat + k := by
    rw [elementAddr_eq_toNat] at hx
    rw [← BitVec.eq_of_toNat_eq hx, BitVec.add_comm, BitVec.add_sub_cancel, BitVec.toNat_ofNat]
    exact Nat.mod_eq_of_lt (hlt.trans h.storageFits)
  refine ⟨inStorage_iff.2 ⟨hk, hoff ▸ hlt⟩, ?_⟩
  rw [Body.slotOfByte, hoff, Nat.mul_comm, Nat.mul_add_div h.elementSize, Nat.div_eq_of_lt hkb,
    Nat.add_zero]

/-- No client may store at a byte of a readable element (R47, R48): the writer's granted elements
are free ones, and no other client is granted a store. -/
theorem Body.Clean.not_mayAccess_readable (hc : b.Clean) (h : b.Configured)
    (hk : b.constructed = true) {x : Word w} {i k : Nat} (p : PortId) (hr : b.ghost.rlog ≤ i)
    (hw : i < b.ghost.wlog) (hkb : k < b.esz.toNat) (hx : b.elementAddr i k = x.toNat) :
    b.mayAccess p true x = false := by
  obtain ⟨hin, hslot⟩ := h.inStorage_elementAddr hk hkb hx
  cases p with
  | writer =>
    simp only [Body.mayAccess, hin, hslot, Bool.not_true, Bool.false_or]
    refine Bool.eq_false_iff.2 fun hg => ?_
    obtain ⟨d, hd, hmod⟩ := (grantedSlotsAreThoseOfTheGrantedElements _ _ _ _
      (Nat.mod_lt i h.cap_pos)).1 hg
    have hgrant := (hc.grants hk).1
    have hfill := (hc.ordered hk).2
    rw [Body.filled] at hgrant hfill
    exact mod_ne_of_lt_of_sub_lt (show i < b.ghost.wlog + d by omega) (by omega) hmod.symm
  | reader => simp [Body.mayAccess, hin]
  | control => simp [Body.mayAccess, hin]

/-- In an unfaulted run no step changes a byte of a readable element (R91). -/
theorem step_elementAddr (hs : b.Sound) (h : step ⟨w, b⟩ = .next ⟨w, c⟩)
    (hf : c.ghost.faults = .empty) (hk : b.constructed = true) {i k : Nat}
    (hr : b.ghost.rlog ≤ i) (hw : i < b.ghost.wlog) (hkb : k < b.esz.toNat) :
    memRead c.mem (b.elementAddr i k) = memRead b.mem (b.elementAddr i k) := by
  have hc := hs.clean (step_unfaulted h hf)
  have hcfg := hs.inv.constructed hk
  by_contra hne
  rcases memoryChangesOnlyInCopiesStoresAndGrants w b c _ h hne with
    ⟨-, hst, haddr⟩ | ⟨-, hst, haddr⟩ | ⟨p, x, v, hm, haddr⟩ | ⟨-, -, hn, -⟩
  · rw [hcfg.transferAddr_toNat hcfg.writeIndex] at haddr
    exact hc.writerSlot_ne hst hr hw (hcfg.slot_eq_of_elementAddr_eq (hc.unwrapped hk) hkb
      (Nat.mod_lt _ hcfg.elementSize) haddr)
  · have hbusy := hc.reading (by rw [hst]; decide)
    have hfit := hs.inv.transferFits hk (hbusy.count.trans (hc.ordered hk).2)
    refine hcfg.buffer_ne_elementAddr (e := i) hbusy.buffer hfit (hbusy.copying hst) hkb ?_
    rw [BitVec.ofNat_toNat, BitVec.setWidth_eq]
    exact haddr.symm
  · obtain ⟨rest, hsched⟩ := List.head?_eq_some_iff.1 hm
    rw [step_inv b h, stepped_cons b hsched] at hf
    obtain ⟨hright, -⟩ := recordIf_empty (b := { b with sched := rest }) hf
    have hno : ({ b with sched := rest } : Body w).mayAccess p true x = false :=
      hc.not_mayAccess_readable hcfg hk p hr hw hkb haddr
    rw [hno] at hright
    cases hright
  · rw [hk] at hn
    cases hn

/-- In an unfaulted run a step that keeps the configuration keeps the readable elements. -/
theorem step_keepsReadable (hs : b.Sound) (h : step ⟨w, b⟩ = .next ⟨w, c⟩)
    (hf : c.ghost.faults = .empty) (hk : b.constructed = true) (hc : SameConfig b c) :
    b.KeepsReadable c := by
  intro i hr hw
  obtain ⟨hcap, -, -, hesz, hbase, -⟩ := hc
  rw [Body.elementBytes, Body.elementBytes, hesz]
  refine List.map_congr_left fun k hkb => ?_
  have haddr : c.elementAddr i k = b.elementAddr i k := by
    rw [Body.elementAddr, hcap, hesz, hbase, Body.elementAddr]
  rw [elementByte_eq, haddr, elementByte_eq]
  exact step_elementAddr hs h hf hk hr hw (List.mem_range.1 hkb)

/-- What a step does to the logical indices: nothing, or the move its agent may make. -/
theorem step_queueMove (h : step ⟨w, b⟩ = .next ⟨w, c⟩) :
    c = b ∨ ∃ m, b.sched.head? = some m ∧ QueueMove b c m := by
  refine step_rel (R := fun b c => c = b ∨ ∃ m, b.sched.head? = some m ∧ QueueMove b c m) h
    (.inl rfl) fun m rest hsched => .inr ⟨m, by rw [hsched]; rfl, ?_⟩
  obtain ⟨d, hd, ha⟩ := moved_acts { b with sched := rest } m
  exact hd.queueMove.of_alike (b.alike_sched rest) ha

/-- Settles O60: a step that leaves the configuration keeps the readable elements, and moves at most
one logical index; an unconstructed block has no bytes. -/
theorem everyStepIsAStepOfAQueue : Obligations.EveryStepIsAStepOfAQueue := by
  intro w b c hs h hf
  have hs' := stepKeepsTheContractInvariant w b c hs h
  rcases step_queueMove h with rfl | ⟨m, hm, hmove⟩
  · exact .inl rfl
  cases hk : b.constructed with
  | false =>
    rw [hs.inv.contents_of_unconstructed hk]
    cases hmove with
    | keeps hc | appends _ _ hc | takes _ _ hc =>
      exact .inl (hs'.inv.contents_of_unconstructed (hc.constructed.trans hk))
    | empties _ hfilled => exact .inl (contents_of_filled_eq_zero hfilled)
  | true =>
    have hle := ((hs.clean (step_unfaulted h hf)).ordered hk).1
    have hkeep (hc : SameConfig b c) := step_keepsReadable hs h hf hk hc
    cases hmove with
    | keeps hc hr hw =>
      exact .inl (by simpa using contents_append (n := 0) (hkeep hc) hle hr hw)
    | appends n hwriter hc hr hw =>
      exact .inr (.inl ⟨_, contents_append (hkeep hc) hle hr hw,
        by simpa only [hm, Option.some.injEq] using hwriter⟩)
    | takes n hreader hc hr hw =>
      have hle' := ((hs'.clean hf).ordered (hc.constructed.trans hk)).1
      exact .inr (.inr (.inl ⟨_, contents_take (hkeep hc) hle' hr hw,
        by simpa only [hm, Option.some.injEq] using hreader⟩))
    | empties hcontrol hfilled =>
      exact .inr (.inr (.inr ⟨contents_of_filled_eq_zero hfilled, hcontrol ▸ hm⟩))

end Sys2Proof.Machine
end

section
/-! Zero-copy access (R220 to R233): the GET commands answer the regions of `Split` and set a grant,
and the ADVANCE commands publish a count unchecked; neither changes more than that. Beside them, the
storage bytes the reported regions hold. -/

namespace Sys2Proof.Machine

variable {w : Width} {b : Body w}

/-! ### A response beside a change of the indices and the ghost state -/

/-- A response after a change of the two indices and the ghost state leaves all the rest. -/
theorem respondOn_frame (b : Body w) (x y : Word w) (g : Ghost) (p : PortId) (st : Status)
    (r0 r1 r2 r3 r4 : Word w) :
    let c := ({ b with widx := x, ridx := y, ghost := g } : Body w).respondOn p st r0 r1 r2 r3 r4
    SameConfig b c ∧ SameMachines b c ∧ SameMemory b c ∧ OnlyAnswers p b c ∧
      SameSurroundings b c :=
  ⟨by simp [SameConfig], by simp [SameMachines], by simp [SameMemory],
    onlyAnswers_respondOn _ _ _ _ _ _ _ (port_eq_of_fields rfl rfl rfl), by simp [SameSurroundings]⟩

/-! ### The two spans of `Split` (R164) -/

/-- Where the elements reach no further than the end of the storage, one span holds them. -/
theorem Body.Configured.split_of_fits (h : b.Configured) {s n : Word w}
    (hfit : s.toNat % b.cap.toNat + n.toNat ≤ b.cap.toNat) :
    b.split s n = ((b.slot s, n), (0, 0)) :=
  if_pos (by rwa [h.slot_toNat])

/-- Where they reach further, the first span ends with the storage. -/
theorem Body.Configured.split_of_wraps (h : b.Configured) {s n : Word w}
    (hwrap : ¬ s.toNat % b.cap.toNat + n.toNat ≤ b.cap.toNat) :
    b.split s n = ((b.slot s, b.cap - b.slot s), (0, n - (b.cap - b.slot s))) :=
  if_neg (by rwa [h.slot_toNat])

/-- The number of elements from a slot to the end of the storage. -/
theorem Body.Configured.toNat_cap_sub_slot (h : b.Configured) (s : Word w) :
    (b.cap - b.slot s).toNat = b.cap.toNat - s.toNat % b.cap.toNat := by
  have hlt : s.toNat % b.cap.toNat < b.cap.toNat := Nat.mod_lt _ h.cap_pos
  rw [BitVec.toNat_sub_of_le (by rw [BitVec.le_def, h.slot_toNat]; exact hlt.le), h.slot_toNat]

/-- The number of elements left for the second span. -/
theorem Body.Configured.toNat_sub_cap_sub_slot (h : b.Configured) {s n : Word w}
    (hwrap : ¬ s.toNat % b.cap.toNat + n.toNat ≤ b.cap.toNat) :
    (n - (b.cap - b.slot s)).toNat = n.toNat - (b.cap.toNat - s.toNat % b.cap.toNat) := by
  rw [BitVec.toNat_sub_of_le (by rw [BitVec.le_def, h.toNat_cap_sub_slot]; omega),
    h.toNat_cap_sub_slot]

/-! ### The response of the GET commands (R165, R221) -/

/-- A region starts at the address of its first slot, the byte offset exact. -/
theorem region_start (b : Body w) (x m : Word w) :
    (b.region (x, m)).1 = b.base + BitVec.ofNat _ (x.toNat * b.esz.toNat) := by
  rw [BitVec.ofNat_mul, BitVec.ofNat_toNat, BitVec.ofNat_toNat, BitVec.setWidth_eq,
    BitVec.setWidth_eq]
  rfl

/-- A second region that exists starts at `BASE` (R165). -/
theorem secondRegion_of_ne_zero (b : Body w) {m : Word w} (hm : m ≠ 0) :
    b.secondRegion (0, m) = (b.base, m) := by
  rw [Body.secondRegion, if_neg hm]
  simp [Body.region]

/-- The active port after the response of a GET command. -/
theorem port_answerRegions (b : Body w) (g : Ghost) (s n : Word w) :
    (({ b with ghost := g } : Body w).answerRegions s n).port b.active =
      (b.port b.active).answer .ok n (b.region (b.split s n).1).1 (b.region (b.split s n).1).2
        (b.secondRegion (b.split s n).2).1 (b.secondRegion (b.split s n).2).2 :=
  (Body.port_respondOn_self ..).trans (by cases b.active <;> rfl)

/-- The response is that of R221: one region, or two where the elements reach past the end of the
storage. -/
theorem Body.Configured.regionsAnswered (h : b.Configured) (g : Ghost) (s n : Word w) :
    RegionsAnswered b (({ b with ghost := g } : Body w).answerRegions s n) n
      (s.toNat % b.cap.toNat) := by
  have hlt : s.toNat % b.cap.toNat < b.cap.toNat := Nat.mod_lt _ h.cap_pos
  have hstart := region_start b (b.slot s)
  rw [h.slot_toNat] at hstart
  rw [RegionsAnswered, port_answerRegions]
  by_cases hfit : s.toNat % b.cap.toNat + n.toNat ≤ b.cap.toNat
  · simp only [h.split_of_fits hfit, hfit, if_true]
    exact ⟨rfl, rfl, hstart n, rfl, rfl, rfl, rfl⟩
  · have hfirst := h.toNat_cap_sub_slot s
    have hrest := h.toNat_sub_cap_sub_slot hfit
    have hne : n - (b.cap - b.slot s) ≠ 0 := fun h0 => by
      rw [word_eq_zero_iff, hrest] at h0
      omega
    simp only [h.split_of_wraps hfit, secondRegion_of_ne_zero b hne, hfit, if_false]
    refine ⟨rfl, rfl, hstart _, hfirst, rfl, hrest, ?_⟩
    show (b.cap - b.slot s).toNat + (n - (b.cap - b.slot s)).toNat = n.toNat
    omega

/-- A GET command's response and grant, with nothing else changed. -/
theorem Body.Configured.answerRegions_spec (h : b.Configured) (g : Ghost) (s n : Word w) :
    let c := ({ b with ghost := g } : Body w).answerRegions s n
    RegionsAnswered b c n (s.toNat % b.cap.toNat) ∧ c.ghost = g ∧ SameRegisters b c ∧
      SameMachines b c ∧ SameMemory b c ∧ OnlyAnswers b.active b c ∧ SameSurroundings b c := by
  obtain ⟨hconfig, hrest⟩ := respondOn_frame b b.widx b.ridx g b.active .ok n
    (b.region (b.split s n).1).1 (b.region (b.split s n).1).2
    (b.secondRegion (b.split s n).2).1 (b.secondRegion (b.split s n).2).2
  exact ⟨h.regionsAnswered g s n, Body.respondOn_ghost .., ⟨hconfig, Body.respondOn_widx ..,
    Body.respondOn_ridx ..⟩, hrest⟩

/-- The accept step of GET_WRITE_REGIONS. -/
theorem effect_getWriteRegions (hp : b.active = .writer) (hc : b.constructed = true) :
    b.effect .getWriteRegions = b.getWriteRegions b.opa :=
  constructedCommand_of_port b (List.mem_singleton.2 hp) hc

/-- The accept step of GET_READ_REGIONS. -/
theorem effect_getReadRegions (hp : b.active = .reader) (hc : b.constructed = true) :
    b.effect .getReadRegions = b.getReadRegions b.opa :=
  constructedCommand_of_port b (List.mem_singleton.2 hp) hc

/-- Settles O37: the rule is a response with the clamped count beside the writer's grant. -/
theorem getWriteRegionsReportsFreeSlots : Obligations.GetWriteRegionsReportsFreeSlots := by
  intro w b hi hp hc
  refine ⟨_, _, exec_eq b _, clamp_toNat .., ?_⟩
  rw [effect_getWriteRegions hp hc, ← hp]
  exact (hi.constructed hc).answerRegions_spec _ b.widx _

/-- Settles O38: the rule is a response with the clamped count beside the reader's grant. -/
theorem getReadRegionsReportsFilledSlots : Obligations.GetReadRegionsReportsFilledSlots := by
  intro w b hi hp hc
  refine ⟨_, _, exec_eq b _, clamp_toNat .., ?_⟩
  rw [effect_getReadRegions hp hc, ← hp]
  exact (hi.constructed hc).answerRegions_spec _ b.ridx _

/-! ### The ADVANCE commands (R224 to R226, R232, R233) -/

/-- The overcommit of ADVANCE_WRITE_INDEX (R225). -/
theorem excessWrite_iff {n : Word w} :
    b.excessWrite n = true ↔ b.ghost.wgrant < n.toNat ∨ b.qWA.toNat < n.toNat := by
  rw [Body.excessWrite, Bool.or_eq_true, decide_eq_true_iff, decide_eq_true_iff, BitVec.lt_def]

/-- The overcommit of ADVANCE_READ_INDEX (R233). -/
theorem excessRead_iff {n : Word w} :
    b.excessRead n = true ↔ b.ghost.rgrant < n.toNat ∨ b.qRA.toNat < n.toNat := by
  rw [Body.excessRead, Bool.or_eq_true, decide_eq_true_iff, decide_eq_true_iff, BitVec.lt_def]

/-- R45's "0 if negative" is subtraction of natural numbers. -/
theorem ite_sub_eq_sub (grant n : Nat) : (if n ≤ grant then grant - n else 0) = grant - n :=
  ite_eq_left_iff.2 fun hlt => (Nat.sub_eq_zero_of_le (Nat.le_of_not_le hlt)).symm

/-- The accept step of ADVANCE_WRITE_INDEX. -/
theorem effect_advanceWriteIndex (hp : b.active = .writer) (hc : b.constructed = true) :
    b.effect .advanceWriteIndex = b.advanceWriteIndex b.opa :=
  constructedCommand_of_port b (List.mem_singleton.2 hp) hc

/-- The accept step of ADVANCE_READ_INDEX. -/
theorem effect_advanceReadIndex (hp : b.active = .reader) (hc : b.constructed = true) :
    b.effect .advanceReadIndex = b.advanceReadIndex b.opa :=
  constructedCommand_of_port b (List.mem_singleton.2 hp) hc

/-- Settles O39: the rule moves the write index and the writer's ghost items, and answers. -/
theorem advanceWriteIndexPublishesUnchecked : Obligations.AdvanceWriteIndexPublishesUnchecked := by
  intro w b hi hp hc
  refine ⟨_, exec_eq b _, ?_⟩
  rw [effect_advanceWriteIndex hp hc, ← hp, b.advanceWriteIndex_eq]
  simp only [ite_sub_eq_sub, ← excessWrite_iff, Body.ok_widx, Body.ok_ridx, Body.ok_ghost]
  exact ⟨(hi.constructed hc).toNat_idxAdd .., rfl, answered_respondOn .., rfl,
    respondOn_frame b _ b.ridx _ _ _ _ _ _ _ _⟩

/-- Settles O40: the rule moves the read index and the reader's ghost items, and answers. -/
theorem advanceReadIndexPublishesUnchecked : Obligations.AdvanceReadIndexPublishesUnchecked := by
  intro w b hi hp hc
  refine ⟨_, exec_eq b _, ?_⟩
  rw [effect_advanceReadIndex hp hc, ← hp, b.advanceReadIndex_eq]
  simp only [ite_sub_eq_sub, ← excessRead_iff, Body.ok_widx, Body.ok_ridx, Body.ok_ghost]
  exact ⟨(hi.constructed hc).toNat_idxAdd .., rfl, answered_respondOn .., rfl,
    respondOn_frame b b.widx _ _ _ _ _ _ _ _ _⟩

/-! ### The bytes of the reported regions (R221, R223, R229) -/

/-- Byte `a` lies in a reported region, addresses modulo `2^W` (R71). -/
def Body.InRegion (b : Body w) (r : Word w × Word w) (a : Word w) : Prop :=
  (a - r.1).toNat < r.2.toNat * b.esz.toNat

/-- Byte `a` is one of the `len` bytes from offset `p` on exactly where its own offset is from `p`
to `p + len`, all counted from `base` modulo `2^W` (R71). -/
theorem toNat_sub_add_ofNat_lt_iff {a base : Word w} {p len : Nat} (hp : p + len < w.size) :
    (a - (base + BitVec.ofNat _ p)).toNat < len ↔
      p ≤ (a - base).toNat ∧ (a - base).toNat < p + len := by
  have hoff : (BitVec.ofNat w.bits p).toNat = p := Nat.mod_eq_of_lt (show p < w.size by omega)
  have hlt : (a - base).toNat < w.size := (a - base).isLt
  rw [sub_add_eq_sub_sub]
  rcases Nat.lt_or_ge (a - base).toNat p with hbelow | hfrom
  · have hfar : (a - base - BitVec.ofNat _ p).toNat = w.size - p + (a - base).toNat := by
      rw [BitVec.toNat_sub, hoff]
      exact Nat.mod_eq_of_lt (show w.size - p + (a - base).toNat < w.size by omega)
    omega
  · rw [BitVec.toNat_sub_of_le (by rw [BitVec.le_def, hoff]; exact hfrom), hoff]
    omega

/-- A byte lies in the region of a span of slots exactly where its slot is one of them. -/
theorem Body.Configured.inRegion_iff (h : b.Configured) {span : Word w × Word w} (a : Word w)
    (hspan : span.1.toNat + span.2.toNat ≤ b.cap.toNat) :
    b.InRegion (b.region span) a ↔
      b.slotOfByte a ∈ (List.range span.2.toNat).map (span.1.toNat + ·) := by
  have hend : (span.1.toNat + span.2.toNat) * b.esz.toNat ≤ b.storageBytes :=
    Nat.mul_le_mul_right _ hspan
  have hfits := h.storageFits
  have hrow : b.slotOfByte a ∈ (List.range span.2.toNat).map (span.1.toNat + ·) ↔
      span.1.toNat ≤ b.slotOfByte a ∧ b.slotOfByte a < span.1.toNat + span.2.toNat := by
    rw [← List.range'_eq_map_range, List.mem_range'_1]
  rw [Nat.add_mul] at hend
  rw [hrow, Body.slotOfByte, Nat.le_div_iff_mul_le h.elementSize,
    Nat.div_lt_iff_lt_mul h.elementSize, Nat.add_mul, Body.InRegion, region_start]
  exact toNat_sub_add_ofNat_lt_iff (len := span.2.toNat * b.esz.toNat) (by omega)

/-- An empty second span has no region (R165), and no slot. -/
theorem Body.Configured.inSecondRegion_iff (h : b.Configured) {span : Word w × Word w} (a : Word w)
    (hspan : span.1.toNat + span.2.toNat ≤ b.cap.toNat) :
    b.InRegion (b.secondRegion span) a ↔
      b.slotOfByte a ∈ (List.range span.2.toNat).map (span.1.toNat + ·) := by
  rw [Body.secondRegion]
  split_ifs with hempty
  · simp [Body.InRegion, hempty]
  · exact h.inRegion_iff a hspan

/-- A byte lies in the two regions of `n` elements exactly where its slot is one of theirs (R164).
-/
theorem Body.Configured.inRegions_iff (h : b.Configured) {s n : Word w} {log : Nat}
    (hlog : s.toNat = log % (2 * b.cap.toNat)) (hn : n.toNat ≤ b.cap.toNat) (a : Word w) :
    (b.InRegion (b.region (b.split s n).1) a ∨ b.InRegion (b.secondRegion (b.split s n).2) a) ↔
      ∃ d, d < n.toNat ∧ (log + d) % b.cap.toNat = b.slotOfByte a := by
  obtain ⟨hfirst, hsecond, hslots⟩ := splitCoversTheSlotsInOrder w b h s n hn
  have hmod : s.toNat % b.cap.toNat = log % b.cap.toNat := by
    rw [hlog, Nat.mod_mod_of_dvd _ (Nat.dvd_mul_left ..)]
  rw [h.inRegion_iff a hfirst, h.inSecondRegion_iff a hsecond, ← List.mem_append, ← hslots,
    List.mem_map]
  simp only [List.mem_range, Nat.add_mod s.toNat, hmod, ← Nat.add_mod]

/-- The two regions a GET command answers hold the bytes of `n` elements' slots. -/
theorem Body.Configured.answeredRegions_iff (h : b.Configured) (g : Ghost) {s n : Word w}
    {log : Nat} (hlog : s.toNat = log % (2 * b.cap.toNat)) (hn : n.toNat ≤ b.cap.toNat)
    (a : Word w) :
    let q := (({ b with ghost := g } : Body w).answerRegions s n).port b.active
    (b.InRegion (q.res1, q.res2) a ∨ b.InRegion (q.res3, q.res4) a) ↔
      ∃ d, d < n.toNat ∧ (log + d) % b.cap.toNat = b.slotOfByte a := by
  rw [port_answerRegions]
  exact h.inRegions_iff hlog hn a

/-- A response changes no client's rights. -/
theorem hasStorageRight_answerRegions (b : Body w) (s n : Word w) (p : PortId) (store : Bool)
    (a : Word w) :
    HasStorageRight (b.answerRegions s n) p store a ↔ HasStorageRight b p store a := by
  simp [HasStorageRight, Body.answerRegions]

/-- The writer's right is to the slots of its granted elements (R48). -/
theorem hasStorageRight_writer (store : Bool) (a : Word w) : HasStorageRight b .writer store a ↔
    ∃ d, d < b.ghost.wgrant ∧ (b.ghost.wlog + d) % b.cap.toNat = b.slotOfByte a := Iff.rfl

/-- The reader's right is to load from the slots of its granted elements (R48). -/
theorem hasStorageRight_reader (a : Word w) : HasStorageRight b .reader false a ↔
    ∃ d, d < b.ghost.rgrant ∧ (b.ghost.rlog + d) % b.cap.toNat = b.slotOfByte a :=
  and_iff_right rfl

/-- A clamped count is no more than `CAP` (R178). -/
theorem clamp_le_cap (b : Body w) (count avail : Word w) :
    (b.clamp count avail).toNat ≤ b.cap.toNat :=
  (clamp_toNat ..).trans_le (min_le_right _ _)

/-- Settles O47: a GET command grants the elements from its client's logical index on, and their
slots are those of the two regions. -/
theorem reportedRegionsAreTheGrantedBytes : Obligations.ReportedRegionsAreTheGrantedBytes := by
  intro w b i hi hc hcmd
  have h := hi.constructed hc
  refine ⟨_, exec_eq b i, fun a _ => ?_⟩
  rcases hcmd with ⟨rfl, hp⟩ | ⟨rfl, hp⟩
  · have hright : HasStorageRight (b.getWriteRegions b.opa) b.active false a ↔ _ :=
      (hasStorageRight_answerRegions ..).trans (hp ▸ hasStorageRight_writer ..)
    rw [effect_getWriteRegions hp hc]
    exact hright.trans (h.answeredRegions_iff _ h.writeIndex (clamp_le_cap ..) a).symm
  · have hright : HasStorageRight (b.getReadRegions b.opa) b.active false a ↔ _ :=
      (hasStorageRight_answerRegions ..).trans (hp ▸ hasStorageRight_reader ..)
    rw [effect_getReadRegions hp hc]
    exact hright.trans (h.answeredRegions_iff _ h.readIndex (clamp_le_cap ..) a).symm

end Sys2Proof.Machine
end

section
/-! Control commands (R250 to R258) and the check they share (R256): FLUSH and DESTROY clear and
record in-flight use, READ_REG answers a word of the raw layout, and the layout is one row of
bytes. -/

namespace Sys2Proof.Machine

variable {w : Width} {b : Body w}

/-- A command of port C answers on port C. -/
theorem portC_eq_port_active (hp : b.active = .control) (c : Body w) :
    c.portC = c.port b.active := by
  rw [hp]
  rfl

/-! ### Commands on an unconstructed block (R256, R285) -/

/-- A command other than a construction fails its check on an unconstructed block. -/
theorem effect_of_unconstructed {i : Instr} (hn : i ≠ .new) (hs : i ≠ .newWithStorage)
    (hp : b.active ∈ i.ports) (hc : b.constructed = false) :
    b.effect i = b.raise .notConstructed := by
  cases i with
  | new => exact absurd rfl hn
  | newWithStorage => exact absurd rfl hs
  | _ => exact constructedCommand_of_unconstructed hp hc

/-- Settles O12: the check comes before every rule but the constructions', and its failure is a
response. -/
theorem unconstructedBlockAnswersNotConstructed :
    Obligations.UnconstructedBlockAnswersNotConstructed := by
  intro w b i hc hn hs hp
  refine ⟨b.raise .notConstructed, ?_, answered_respondOn .., onlyResponds_respondOn ..⟩
  rw [exec_eq, effect_of_unconstructed hn hs hp hc]

/-! ### FLUSH (R250 to R253) -/

/-- In-flight use, by its four causes (R251). -/
theorem inFlight_iff : b.inFlight = true ↔
    b.writer.st ≠ .idle ∨ b.reader.st ≠ .idle ∨ b.ghost.wzc = true ∨ b.ghost.rzc = true := by
  simp only [Body.inFlight, Bool.or_eq_true, decide_eq_true_iff, or_assoc]

/-- The accept step of FLUSH. -/
theorem effect_flush (hp : b.active = .control) (hc : b.constructed = true) :
    b.effect .flush = b.flush :=
  constructedCommand_of_port b (List.mem_singleton.2 hp) hc

/-- Settles O41: the rule clears the indices and the ghost items, and answers. -/
theorem flushZeroesBothIndices : Obligations.FlushZeroesBothIndices := by
  intro w b hp hc
  refine ⟨_, exec_eq b _, ?_⟩
  rw [effect_flush hp hc, portC_eq_port_active hp, b.flush_eq]
  simp only [← inFlight_iff, ← hp]
  exact ⟨Body.ok_widx .., Body.ok_ridx .., answered_respondOn .., Body.ok_ghost ..,
    respondOn_frame b 0 0 _ _ _ _ _ _ _ _⟩

/-- The same response twice is the response once. -/
theorem respondOn_respondOn_same (b : Body w) (p : PortId) (st : Status) (r0 r1 r2 r3 r4 : Word w) :
    (b.respondOn p st r0 r1 r2 r3 r4).respondOn p st r0 r1 r2 r3 r4 =
      b.respondOn p st r0 r1 r2 r3 r4 := by
  cases p <;> rfl

theorem ok_ok_same (b : Body w) (r0 : Word w) : (b.ok r0).ok r0 = b.ok r0 := by
  rw [Body.ok, Body.ok_active]
  exact respondOn_respondOn_same ..

theorem raise_raise_same (b : Body w) (st : Status) : (b.raise st).raise st = b.raise st := by
  rw [Body.raise, Body.raise_active]
  exact respondOn_respondOn_same ..

/-- The clears do not see a response. -/
theorem emptied_ok (b : Body w) (r0 : Word w) : (b.ok r0).emptied = b.emptied.ok r0 := by
  have hrespond : ∀ p, (b.respondOn p .ok r0 0 0 0 0).emptied =
      b.emptied.respondOn p .ok r0 0 0 0 0 := fun p => by cases p <;> rfl
  exact hrespond b.active

/-- Recording a name of the set changes nothing. -/
theorem FaultSet.add_of_has {f : FaultSet} {x : MFault} (h : f.has x = true) : f.add x = f := by
  obtain ⟨_, _, _, _, _, _, _⟩ := f
  cases x <;> cases h <;> rfl

theorem Body.recordIf_of_has {c : Bool} {x : MFault} (h : c = true → b.ghost.faults.has x = true) :
    b.recordIf c x = b := by
  cases c with
  | false => rfl
  | true => rw [Body.recordIf, if_pos rfl, FaultSet.add_of_has (h rfl)]

/-- What is in flight after FLUSH, a busy machine, was so before it, and is recorded. -/
theorem has_flushInFlight_of_inFlight (h : b.flush.inFlight = true) :
    b.flush.ghost.faults.has .flushInFlight = true := by
  have hbefore : b.inFlight = true := by
    rw [inFlight_iff] at h ⊢
    simp only [b.flush_eq, Body.ok_writer, Body.ok_reader, Body.ok_ghost] at h
    rcases h with hw | hr | hz | hz
    · exact .inl hw
    · exact .inr (.inl hr)
    · cases hz
    · cases hz
  rw [b.flush_eq, hbefore, Body.ok_ghost]
  exact b.ghost.faults.has_add_self .flushInFlight

theorem flush_flush (b : Body w) : b.flush.flush = b.flush := by
  rw [b.flush.flush_eq, Body.recordIf_of_has has_flushInFlight_of_inFlight, b.flush_eq, emptied_ok]
  exact ok_ok_same ..

/-- Settles O42: a second failure answers as the first, and a second flush finds everything clear
and every fault recorded. -/
theorem flushTwiceIsFlushOnce : Obligations.FlushTwiceIsFlushOnce := by
  intro w b b' h
  rw [exec_inv b h, exec_eq]
  suffices hsame : (b.effect .flush).effect .flush = b.effect .flush by rw [hsame]
  by_cases hport : b.active ∈ Instr.flush.ports
  · have hp : b.active = .control := List.mem_singleton.1 hport
    cases hc : b.constructed with
    | true =>
      have hp' : b.flush.active = .control := (Body.ok_active ..).trans hp
      have hc' : b.flush.constructed = true := (Body.ok_constructed ..).trans hc
      rw [effect_flush hp hc, effect_flush hp' hc', flush_flush]
    | false =>
      rw [effect_of_unconstructed (by decide) (by decide) hport hc,
        effect_of_unconstructed (by decide) (by decide) (by simpa using hport) (by simpa using hc),
        raise_raise_same]
  · rw [effect_of_wrong_port hport, effect_of_wrong_port (by simpa using hport), raise_raise_same]

/-! ### DESTROY (R254, R255) -/

/-- The release changes the oracle's live regions, and those only for owned storage. -/
theorem releaseStorage_eq_ite (b : Body w) : b.releaseStorage = { b with oracle :=
    ⟨b.oracle.answers, if b.owned then b.oracle.live.erase (b.base.toNat, b.storageBytes)
      else b.oracle.live⟩ } := by
  unfold Body.releaseStorage
  split_ifs <;> rfl

/-- The accept step of DESTROY. -/
theorem effect_destroy (hp : b.active = .control) (hc : b.constructed = true) :
    b.effect .destroy = b.destroy :=
  constructedCommand_of_port b (List.mem_singleton.2 hp) hc

/-- Settles O43: the rule records, releases, clears and answers. -/
theorem destroyReleasesOwnedStorageOnly : Obligations.DestroyReleasesOwnedStorageOnly := by
  intro w b hp hc
  refine ⟨_, exec_eq b _, ?_⟩
  rw [effect_destroy hp hc, portC_eq_port_active hp, Body.destroy, releaseStorage_eq_ite]
  simp only [← inFlight_iff, ← hp]
  exact ⟨Body.ok_constructed .., Body.ok_cap .., Body.ok_widx .., Body.ok_ridx .., Body.ok_bmask ..,
    Body.ok_smask .., Body.ok_esz .., Body.ok_base .., Body.ok_owned .., answered_respondOn ..,
    Body.ok_ghost .., congrArg Oracle.live (Body.ok_oracle ..),
    (congrArg Oracle.answers (Body.ok_oracle ..)).trans rfl, ⟨Body.ok_writer .., Body.ok_reader ..⟩,
    fun a => congrArg (memRead · a) (Body.ok_mem ..),
    onlyAnswers_respondOn _ _ _ _ _ _ _ (port_eq_of_fields rfl rfl rfl), Body.ok_active ..,
    Body.ok_sched ..⟩

/-! ### READ_REG (R257) -/

/-- The raw layout has words 0 to 6 (R258). -/
theorem layoutWord_eq_ite (b : Body w) (k : Nat) : b.layoutWord k = if 7 ≤ k then none else
    some (if k = 0 then b.cap else if k = 1 then b.widx else if k = 2 then b.ridx
      else if k = 3 then b.bmask else if k = 4 then b.smask else if k = 5 then b.esz
      else b.base) :=
  match k with
  | 0 | 1 | 2 | 3 | 4 | 5 | 6 => rfl
  | k + 7 => (if_pos (Nat.le_add_left 7 k)).symm

/-- The accept step of READ_REG. -/
theorem effect_readReg (hp : b.active = .control) (hc : b.constructed = true) :
    b.effect .readReg = b.readReg b.opa :=
  constructedCommand_of_port b (List.mem_singleton.2 hp) hc

/-- Settles O44: an offset that names a word is answered with it, any other fails. -/
theorem readRegAnswersTheRawLayout : Obligations.ReadRegAnswersTheRawLayout := by
  intro w b hp hc
  refine ⟨_, exec_eq b _, ?_⟩
  rw [effect_readReg hp hc, Body.readReg, layoutWord_eq_ite, portC_eq_port_active hp]
  by_cases h : 7 ≤ b.opa.toNat
  · simp only [h, if_true]
    exact ⟨onlyResponds_respondOn .., answered_respondOn ..⟩
  · simp only [h, if_false]
    exact ⟨onlyResponds_respondOn .., answered_respondOn ..⟩

/-! ### The raw layout as bytes (R258, R11) -/

/-- The place of byte `i` of an `n`-byte word in memory, counted from the least significant one. -/
def byteRank (o : ByteOrder) (n i : Nat) : Nat :=
  match o with
  | .little => i
  | .big => n - 1 - i

theorem wordBytes_eq_map (o : ByteOrder) (v : Word w) : wordBytes o v =
    (List.range (w.bits / 8)).map fun i => v.extractLsb' (8 * byteRank o (w.bits / 8) i) 8 := by
  cases o with
  | little => rfl
  | big =>
    rw [wordBytes, ← List.map_reverse, List.range_eq_range', List.reverse_range', List.map_map,
      List.range_eq_range', Nat.zero_add]
    rfl

/-- Byte `i` of word `k` of the layout. -/
def Body.layoutByte (b : Body w) (o : ByteOrder) (k i : Nat) : Byte :=
  ((b.layoutWord k).getD 0).extractLsb' (8 * byteRank o (w.bits / 8) i) 8

/-- Byte `j` of the layout is byte `j mod (W/8)` of word `j / (W/8)`. -/
theorem rawLayout_eq_map (b : Body w) (o : ByteOrder) : b.rawLayout o =
    (List.range (7 * (w.bits / 8))).map fun j =>
      b.layoutByte o (j / (w.bits / 8)) (j % (w.bits / 8)) := by
  have hpos : 0 < w.bits / 8 := by cases w <;> decide
  rw [← flatMap_map_range (b.layoutByte o) 7 hpos, Body.rawLayout, funext (wordBytes_eq_map o)]
  rfl

theorem lt_seven_of_layoutWord {k : Nat} {v : Word w} (h : b.layoutWord k = some v) : k < 7 := by
  rw [layoutWord_eq_ite] at h
  exact not_le.1 fun hk => by simp [hk] at h

/-- Settles O45: the layout is seven rows of `W/8` bytes. -/
theorem rawLayoutExportsSevenWords : Obligations.RawLayoutExportsSevenWords := by
  intro w b o
  rw [rawLayout_eq_map]
  refine ⟨by simp, fun k i v hv hi => ?_⟩
  have hpos : 0 < w.bits / 8 := Nat.zero_lt_of_lt hi
  have hdiv : (k * (w.bits / 8) + i) / (w.bits / 8) = k := by
    rw [Nat.mul_comm, Nat.mul_add_div hpos, Nat.div_eq_of_lt hi, Nat.add_zero]
  have hlt : k * (w.bits / 8) + i < 7 * (w.bits / 8) :=
    (Nat.div_lt_iff_lt_mul hpos).1 (hdiv.symm ▸ lt_seven_of_layoutWord hv)
  have hmod : (k * (w.bits / 8) + i) % (w.bits / 8) = i := by
    rw [Nat.mul_comm, Nat.mul_add_mod, Nat.mod_eq_of_lt hi]
  rw [List.getElem?_map, List.getElem?_range hlt, Option.map_some, hdiv, hmod, Body.layoutByte, hv]
  rfl

end Sys2Proof.Machine
end

section
/-! Exceptions (R282 to R293): no step stops the machine, and each check of R286, where it fails and
those before it pass, makes its command a response alone. -/

namespace Sys2Proof.Machine

variable {w : Width} {b : Body w} {i : Instr} {st : Status}

/-- Settles O8: the step is a function of the body. -/
theorem everyStepAnswersANextState : Obligations.EveryStepAnswersANextState :=
  fun ⟨_, b⟩ => ⟨_, step_eq b, rfl⟩

/-! ### A failed command (R280, R284) -/

/-- The first check of a list is the answer where it fails. -/
theorem map_find?_check_cons (failed : Bool) (st : Status) (rest : List (Bool × Status)) :
    (((failed, st) :: rest).find? (·.1)).map (·.2) =
      if failed then some st else (rest.find? (·.1)).map (·.2) := by
  cases failed <;> rfl

/-- The model's status numbers are those of R280. -/
theorem code_eq_tableCode (st : Status) : st.code = tableCode st := by cases st <;> rfl

/-- `r` is `b` after a failed command: the response, and for `AllocFailed` other answers to come. -/
def Body.FailsTo (b : Body w) (st : Status) (r : Body w) : Prop :=
  ∃ answers, r = ({ b with oracle := ⟨answers, b.oracle.live⟩ } : Body w).raise st ∧
    (st ≠ .allocFailed → answers = b.oracle.answers)

theorem failsTo_of_raise {r : Body w} (h : r = b.raise st) : b.FailsTo st r :=
  ⟨b.oracle.answers, h, fun _ => rfl⟩

/-- The two constructions. -/
theorem constructs_iff : constructs i = true ↔ i = .new ∨ i = .newWithStorage := by
  cases i <;> decide

/-! ### Construction -/

theorem effect_new (hp : b.active ∈ Instr.new.ports) : b.effect .new = b.new b.opa b.opb :=
  command_of_port b hp

theorem effect_newWithStorage (hp : b.active ∈ Instr.newWithStorage.ports) :
    b.effect .newWithStorage = b.newWithStorage b.opa b.opb b.opc :=
  command_of_port b hp

theorem effect_of_alreadyConstructed (hp : b.active ∈ i.ports) (hi : constructs i = true)
    (hc : b.constructed = true) : b.effect i = b.raise .alreadyConstructed := by
  rcases constructs_iff.1 hi with rfl | rfl
  · rw [effect_new hp, Body.new, if_pos hc]
  · rw [effect_newWithStorage hp, Body.newWithStorage, if_pos hc]

theorem effect_of_zero_elementSize (hp : b.active ∈ i.ports) (hi : constructs i = true)
    (hc : ¬ b.constructed = true) (hz : b.opa = 0) :
    b.effect i = b.raise .invalidElementSize := by
  rcases constructs_iff.1 hi with rfl | rfl
  · rw [effect_new hp, Body.new, if_neg hc, if_pos hz]
  · rw [effect_newWithStorage hp, Body.newWithStorage, if_neg hc, if_pos hz]

theorem effect_of_sizeMismatch (hp : b.active ∈ Instr.newWithStorage.ports)
    (hc : ¬ b.constructed = true) (hz : b.opa ≠ 0) (hrem : remainder b.opc b.opa ≠ 0) :
    b.effect .newWithStorage = b.raise .sizeMismatch := by
  rw [effect_newWithStorage hp, Body.newWithStorage, if_neg hc, if_neg hz, if_pos hrem]

theorem effect_of_invalidCapacity (hp : b.active ∈ i.ports) (hi : constructs i = true)
    (hc : ¬ b.constructed = true) (hz : b.opa ≠ 0)
    (hrem : i = .newWithStorage → remainder b.opc b.opa = 0)
    (hcap : isPow2 (b.requestedCapacity i) = false) :
    b.effect i = b.raise .invalidCapacity := by
  rw [← Bool.not_eq_true'] at hcap
  rcases constructs_iff.1 hi with rfl | rfl
  · rw [effect_new hp, Body.new, if_neg hc, if_neg hz]
    exact if_pos hcap
  · rw [effect_newWithStorage hp, Body.newWithStorage, if_neg hc, if_neg hz,
      if_neg (not_not.2 (hrem rfl))]
    exact if_pos hcap

/-- NEW's last check: the request is too large, and is not made, or the oracle refuses it (R131). -/
theorem effect_of_allocFails (hp : b.active ∈ Instr.new.ports) (hc : ¬ b.constructed = true)
    (hz : b.opa ≠ 0) (hcap : isPow2 b.opb = true) (hfails : b.allocFails = true) :
    b.FailsTo .allocFailed (b.effect .new) := by
  rw [effect_new hp]
  by_cases hbig : w.size ≤ b.opb.toNat * b.opa.toNat
  · refine failsTo_of_raise ?_
    rw [Body.new, if_neg hc, if_neg hz, if_neg (by simp [hcap]), if_pos hbig]
  · rw [new_of_legal (by simpa using hc) hz hcap (not_le.1 hbig)]
    rcases allocRequest_cases b (b.opb.toNat * b.opa.toNat) with
      ⟨answers, ha⟩ | ⟨base, _, _, -, -, ha⟩
    · rw [ha]
      exact ⟨answers, rfl, fun h => absurd rfl h⟩
    · simp [Body.allocFails, ha, hbig] at hfails

/-! ### The other commands -/

theorem effect_of_notConstructed (hp : b.active ∈ i.ports) (hi : constructs i = false)
    (hc : b.constructed = false) : b.effect i = b.raise .notConstructed :=
  effect_of_unconstructed (by rintro rfl; cases hi) (by rintro rfl; cases hi) hp hc

theorem effect_of_dataMismatch (hp : b.active ∈ i.ports)
    (hc : constructs i = false → b.constructed = true) (h : b.dataMismatch i = true) :
    b.effect i = b.raise .dataSizeMismatch := by
  cases i with
  | write =>
    rw [effect_write (List.mem_singleton.1 hp) (hc rfl), Body.acceptWrite]
    by_cases hrem : remainder b.opb b.esz ≠ 0
    · exact if_pos hrem
    · rw [if_neg hrem]
      exact if_pos (by simpa [Body.dataMismatch, not_not.1 hrem] using h)
  | readInto =>
    rw [effect_readInto (List.mem_singleton.1 hp) (hc rfl), Body.acceptReadInto]
    exact if_pos (of_decide_eq_true h)
  | _ => cases h

theorem effect_of_invalidRegister (hp : b.active ∈ Instr.readReg.ports)
    (hc : b.constructed = true) (hk : 7 ≤ b.opa.toNat) :
    b.effect .readReg = b.raise .invalidRegister := by
  rw [effect_readReg (List.mem_singleton.1 hp) hc, Body.readReg, layoutWord_eq_ite, if_pos hk]

/-! ### All checks, in the order of R286 -/

/-- A command whose first failing check has status `st` fails with it. -/
theorem effect_failsTo (h : b.firstFailure i = some st) : b.FailsTo st (b.effect i) := by
  simp only [Body.firstFailure, Body.checks, map_find?_check_cons, Bool.and_eq_true,
    Bool.not_eq_true', decide_eq_true_iff] at h
  by_cases hport : b.active ∈ i.ports
  case neg =>
    rw [if_pos hport] at h
    cases h
    exact failsTo_of_raise (effect_of_wrong_port hport)
  rw [if_neg (not_not.2 hport)] at h
  split_ifs at h with hexists hmissing hzero hsize hcap halloc hdata hreg <;> cases h
  · obtain ⟨hi, hc⟩ := hexists
    exact failsTo_of_raise (effect_of_alreadyConstructed hport hi hc)
  · obtain ⟨hi, hc⟩ := hmissing
    exact failsTo_of_raise (effect_of_notConstructed hport hi hc)
  · obtain ⟨hi, hz⟩ := hzero
    exact failsTo_of_raise (effect_of_zero_elementSize hport hi (hexists ⟨hi, ·⟩) hz)
  · obtain ⟨rfl, hrem⟩ := hsize
    exact failsTo_of_raise
      (effect_of_sizeMismatch hport (hexists ⟨rfl, ·⟩) (hzero ⟨rfl, ·⟩) hrem)
  · obtain ⟨hi, hpow⟩ := hcap
    exact failsTo_of_raise (effect_of_invalidCapacity hport hi (hexists ⟨hi, ·⟩) (hzero ⟨hi, ·⟩)
      (fun hs => not_not.1 (hsize ⟨hs, ·⟩)) hpow)
  · obtain ⟨rfl, hfails⟩ := halloc
    exact effect_of_allocFails hport (hexists ⟨rfl, ·⟩) (hzero ⟨rfl, ·⟩)
      (Bool.of_not_eq_false (hcap ⟨rfl, ·⟩)) hfails
  · exact failsTo_of_raise (effect_of_dataMismatch hport
      (fun hi => Bool.of_not_eq_false (hmissing ⟨hi, ·⟩)) hdata)
  · obtain ⟨rfl, hk⟩ := hreg
    exact failsTo_of_raise
      (effect_of_invalidRegister hport (Bool.of_not_eq_false (hmissing ⟨rfl, ·⟩)) hk)

/-- Settles O10: the failed command is a response, and only where it reports `AllocFailed` may a
request to the oracle have come before it. -/
theorem firstFailingCheckIsReported : Obligations.FirstFailingCheckIsReported := by
  intro w b i st h
  obtain ⟨answers, hr, hanswers⟩ := effect_failsTo h
  set c : Body w := { b with oracle := ⟨answers, b.oracle.live⟩ }
  obtain ⟨hregs, hmachines, hghost, hmem, -, horacle, hactive, hsched⟩ :
    OnlyResponds c (c.raise st) := onlyResponds_respondOn ..
  refine ⟨c.raise st, by rw [exec_eq, hr], code_eq_tableCode st ▸ answered_respondOn ..,
    hregs, hmachines, hghost, hmem,
    onlyAnswers_respondOn _ _ _ _ _ _ _ (port_eq_of_fields rfl rfl rfl), hactive, hsched,
    (congrArg Oracle.live horacle).trans rfl, fun hst => ?_⟩
  rw [horacle, show c.oracle = ⟨answers, b.oracle.live⟩ from rfl, hanswers hst]

end Sys2Proof.Machine
end

section
/-! Client accesses (R291): the access happens in any case, and the model's test of the rights fails
exactly for the storage bytes R48 keeps from the client. -/

namespace Sys2Proof.Machine

variable {w : Width} {b : Body w}

/-- A storage byte lies in one of the `CAP` slots (R72). -/
theorem Body.Configured.slotOfByte_lt (h : b.Configured) {a : Word w}
    (ha : (a - b.base).toNat < b.cap.toNat * b.esz.toNat) : b.slotOfByte a < b.cap.toNat :=
  (Nat.div_lt_iff_lt_mul h.elementSize).2 ha

/-- Inside the storage the tested right is that of R48. -/
theorem mayAccess_iff_hasStorageRight {a : Word w} (hin : b.inStorage a = true)
    (hslot : b.slotOfByte a < b.cap.toNat) (p : PortId) (store : Bool) :
    b.mayAccess p store a = true ↔ HasStorageRight b p store a := by
  have hgranted := fun start count =>
    grantedSlotsAreThoseOfTheGrantedElements b.cap.toNat start count (b.slotOfByte a) hslot
  cases p with
  | writer => simpa [Body.mayAccess, hin, hasStorageRight_writer] using hgranted _ _
  | reader =>
    simp only [Body.mayAccess, hin, Bool.not_true, Bool.false_or, Bool.and_eq_true,
      Bool.not_eq_true', hgranted]
    rfl
  | control => simp [Body.mayAccess, hin, HasStorageRight]

/-- R291's condition: a right is missing only to a byte of the storage. -/
theorem not_mayAccess_iff (h : b.Inv) (p : PortId) (store : Bool) (a : Word w) :
    ¬ b.mayAccess p store a = true ↔ b.constructed = true ∧
      (a - b.base).toNat < b.cap.toNat * b.esz.toNat ∧ ¬ HasStorageRight b p store a := by
  by_cases hin : b.inStorage a = true
  · obtain ⟨hc, hlt⟩ := inStorage_iff.1 hin
    rw [mayAccess_iff_hasStorageRight hin ((h.constructed hc).slotOfByte_lt hlt)]
    exact ⟨fun hno => ⟨hc, hlt, hno⟩, fun ⟨_, _, hno⟩ => hno⟩
  · have hmay : b.mayAccess p store a = true := by simp [Body.mayAccess, hin]
    exact iff_of_false (not_not.2 hmay) fun ⟨hc, hlt, _⟩ => hin (inStorage_iff.2 ⟨hc, hlt⟩)

/-- An access that records the fault where the right is missing. -/
theorem accessRecorded_of_ghost_eq (h : b.Inv) {c : Body w} {p : PortId} {store : Bool} {a : Word w}
    (hc : c.ghost = (b.recordIf (!b.mayAccess p store a) .storageAccess).ghost) :
    AccessRecorded b c p store a := by
  have hmissing := not_mayAccess_iff h p store a
  refine ⟨fun hout => ?_, fun hin => ?_⟩
  · rw [hc, Bool.eq_false_iff.2 (hmissing.2 hout)]
    rfl
  · rw [hc, not_not.1 (mt hmissing.1 hin)]
    rfl

/-- Settles O48: a load sets its client's own field and a store its byte, beside what a missing right
records. -/
theorem clientAccessesHappenAndAreChecked : Obligations.ClientAccessesHappenAndAreChecked := by
  intro w b p a v rest h
  refine ⟨fun hs => ⟨_, by rw [step_eq, stepped_cons b hs, Body.moved], ?_⟩,
    fun hs => ⟨_, by rw [step_eq, stepped_cons b hs, Body.moved], ?_⟩⟩
  · rw [Body.clientLoad]
    refine ⟨?_, accessRecorded_of_ghost_eq h (Body.setPort_ghost ..), ?_, ?_, ?_, fun q hq => ?_,
      ?_⟩
    · rw [Body.port_setPort_self, port_sched]
      rfl
    · simp [SameMemory]
    · simp [SameRegisters, SameConfig]
    · simp [SameMachines]
    · rw [Body.port_setPort_other _ _ hq, Body.port_recordIf, port_sched]
    · simp
  · exact ⟨memRead_memWrite_self _ _ (memWf_iff.1 h.memory).1,
      fun x hx => memRead_memWrite_other v hx, accessRecorded_of_ghost_eq h rfl,
      SameRegisters.refl b, ⟨rfl, rfl⟩, port_eq_of_fields rfl rfl rfl, rfl, rfl, rfl⟩

end Sys2Proof.Machine
end

section
/-! Reset (R320, R321): the reset state is that of an unconstructed block (R50), in which nothing is
in flight and the oracle has no region out. -/

namespace Sys2Proof.Machine

variable {w : Width} (mem : List Host.Cell) (answers : List (AllocAnswer w)) (sched : List (Move w))

theorem Body.resetOf_port (p : PortId) : (Body.resetOf w mem answers sched).port p = .reset w := by
  cases p <;> rfl

theorem answered_portReset (w : Width) : Answered (Port.reset w) 0 0 0 0 0 0 :=
  ⟨rfl, rfl, rfl, rfl, rfl, rfl⟩

/-- Settles O49: the values are the reset state's own, and a command that needs a constructed block
fails its check whichever port issues it. -/
theorem resetLeavesTheBlockUnconstructed : Obligations.ResetLeavesTheBlockUnconstructed := by
  intro w mem answers sched b
  have hports (p : PortId) : (b.port p).presented = false ∧ Answered (b.port p) 0 0 0 0 0 0 := by
    rw [show b.port p = .reset w from Body.resetOf_port mem answers sched p]
    exact ⟨rfl, answered_portReset w⟩
  refine ⟨rfl, rfl, rfl, rfl, rfl, rfl, rfl, rfl, rfl, rfl, rfl, hports, rfl, rfl, rfl, ?_⟩
  intro i p hn hs hp
  obtain ⟨b', hexec, hanswered, -⟩ :=
    unconstructedBlockAnswersNotConstructed w { b with active := p } i rfl hn hs hp
  exact ⟨b', hexec, hanswered⟩

variable {mem}

/-- The invariant asks of the reset state only that its memory is canonical. -/
theorem inv_resetOf (h : memWf w mem = true) : (Body.resetOf w mem answers sched).Inv where
  memory := h
  unconstructed _ := ⟨rfl, rfl, rfl, rfl, rfl, rfl, rfl, rfl⟩
  constructed hc := absurd hc Bool.false_ne_true
  liveApart := .nil
  liveFits _ hr := absurd hr List.not_mem_nil
  ownedLive ho := absurd ho Bool.false_ne_true

/-- No machine is busy right after reset, and no grant is held. -/
theorem clean_resetOf : (Body.resetOf w mem answers sched).Clean :=
  clean_of_idle rfl rfl rfl fun hc => absurd hc Bool.false_ne_true

theorem sound_resetOf (h : memWf w mem = true) : (Body.resetOf w mem answers sched).Sound :=
  ⟨inv_resetOf answers sched h, fun _ => clean_resetOf answers sched⟩

/-- Settles O50: the machine's own reset is the one with no byte listed. -/
theorem resetMeetsTheInvariant : Obligations.ResetMeetsTheInvariant :=
  ⟨sound_resetOf [] [] memWf_nil, fun _ _ answers sched h => sound_resetOf answers sched h⟩

end Sys2Proof.Machine
end
